-- ==== Sys2Proof/Word.lean ====
section
/-! DEFINITION. The words of the AutoDriver register-access block: the byte the bus port exchanges, the 32-bit integer operand
and the 64-bit request words of the request port (00_scope.md R7, 30_encoding.md R80, R81). -/

namespace Sys2Proof

/-- The byte of one bus exchange (10_state.md R31). -/
abbrev Byte := BitVec 8

/-- A 32-bit word: the integer operand `VAL` and the two halves of `PHYS` (30_encoding.md R80, R81; `VAL_BITS` = 32, R5). -/
abbrev Word32 := BitVec 32

/-- A request-port word: `REQ` or `PHYS` (30_encoding.md R80, R81). -/
abbrev Word64 := BitVec 64

/-- A register id (`ID_BITS` = 5, 00_scope.md R5, 20_memory.md R61). -/
abbrev RegId := BitVec 5

/-- A sub-field id (45_subfield.md R280: `fid` in 0..15). -/
abbrev FieldId := BitVec 4

/-- A chain position operand (8 bits, 30_encoding.md R80; it may be outside the chain, R62). -/
abbrev Pos := BitVec 8

end Sys2Proof
end

