-- ==== Sys2Proof/Syntax.lean ====
section
/-! DEFINITION. The operations of spec/opcode_table.json as data: one constructor of Instr per row (twelve request operations and
three wire bytes), and the two encodings' raw forms: the request as the block latches it (10_state.md R23) and the command and
filler bytes of the wire (30_encoding.md R86). -/

namespace Sys2Proof

/-- The physical operand `PHYS` (30_encoding.md R81): the rational `NUM / DEN`, `NUM` read as two's complement and `DEN` as
unsigned. It stays a pair because `DEN` may be 0. -/
structure Phys where
  num : Word32
  den : Word32
  deriving DecidableEq, Repr, Inhabited

/-- A request as latched (10_state.md R23): the fields of 30_encoding.md R80 and R81. `rsv` holds `REQ[31:26]`, which R23 does not
list and the ADDRESSING step must still see to raise IllegalOperation (R84, R301). DEDUCED, log entry 3. -/
structure Request where
  op   : BitVec 4
  reg  : RegId
  fld  : FieldId
  wl   : BitVec 5
  pos  : Pos
  rsv  : BitVec 6
  val  : Word32
  phys : Phys
  deriving DecidableEq, Repr, Inhabited

/-- The bytes the chip knows as commands and as filler (30_encoding.md R86): `NOP_BYTE`, and `CMD_SET` and `CMD_GET` as functions
of the 5-bit id, each held as its 32 values. -/
structure WireCodes where
  nop    : Byte
  setCmd : Vector Byte 32
  getCmd : Vector Byte 32
  deriving DecidableEq, Repr, Inhabited

/-- `CMD_SET(id)` (30_encoding.md R86). -/
def WireCodes.set (wc : WireCodes) (id : RegId) : Byte := wc.setCmd[id.toNat]'id.isLt

/-- `CMD_GET(id)` (30_encoding.md R86). -/
def WireCodes.get (wc : WireCodes) (id : RegId) : Byte := wc.getCmd[id.toNat]'id.isLt

/-- One constructor per row of spec/opcode_table.json. A request operation carries exactly the fields that 30_encoding.md R82
says it reads. The last three are the wire bytes of R86: what one exchange of the bus carries in one slot. -/
inductive Instr where
  /-- LOOKUP (40_registry.md R114). -/
  | lookup (reg : RegId)
  /-- CONVERT (41_conversion.md R136). -/
  | convert (reg : RegId) (phys : Phys)
  /-- INVERT (41_conversion.md R137). -/
  | invert (reg : RegId) (val : Word32)
  /-- ENCODE (42_codec.md R171): width `w`, integer `v`. -/
  | encode (w : BitVec 5) (v : Word32)
  /-- DECODE (42_codec.md R173): width `w`, four operand bytes. -/
  | decode (w : BitVec 5) (bytes : Word32)
  /-- SET_PARAM (43_chain.md R220). -/
  | setParam (pos : Pos) (reg : RegId) (phys : Phys)
  /-- SET_RAW (43_chain.md R221). -/
  | setRaw (pos : Pos) (reg : RegId) (val : Word32)
  /-- GET_PARAM (43_chain.md R222). -/
  | getParam (pos : Pos) (reg : RegId)
  /-- XFER_FRAME (43_chain.md R224): frame length `len`, four operand bytes. -/
  | xferFrame (pos : Pos) (len : BitVec 5) (bytes : Word32)
  /-- SET_SUBFIELD (45_subfield.md R283). -/
  | setSubfield (pos : Pos) (reg : RegId) (fld : FieldId) (val : Word32)
  /-- GET_SUBFIELD (45_subfield.md R282). -/
  | getSubfield (pos : Pos) (reg : RegId) (fld : FieldId)
  /-- BUSY (44_busy.md R263). -/
  | busy (pos : Pos)
  /-- WIRE_NOP: the no-operation byte (30_encoding.md R86, 43_chain.md R206). -/
  | wireNop
  /-- WIRE_CMD_SET: the command byte that opens a set frame (30_encoding.md R86, 43_chain.md R203). -/
  | wireCmdSet (id : RegId)
  /-- WIRE_CMD_GET: the command byte that opens a get frame (30_encoding.md R86, 43_chain.md R203). -/
  | wireCmdGet (id : RegId)
  deriving DecidableEq, Repr, Inhabited

/-- The three wire bytes among the instructions; the others are request operations. -/
def Instr.isWire : Instr → Bool
  | .wireNop | .wireCmdSet _ | .wireCmdGet _ => true
  | .lookup _ | .convert _ _ | .invert _ _ | .encode _ _ | .decode _ _ | .setParam _ _ _ | .setRaw _ _ _ | .getParam _ _
  | .xferFrame _ _ _ | .setSubfield _ _ _ _ | .getSubfield _ _ _ | .busy _ => false

end Sys2Proof
end

