-- ==== Sys2Proof/Config.lean ====
section
/-! DEFINITION. What an implementation fixes (00_scope.md R5) and what the environment supplies (10_state.md R30 to R34): the types
of the configuration record, the fixed sizes of the family, the input ports as plain data, and the one free value of the model,
the inputs of steps that no script of the state provides. -/

namespace Sys2Proof

/-- `W_MIN` and `W_MAX`, the smallest and largest register width (00_scope.md R5). -/
def wMin : Nat := 1
/-- `W_MAX` (00_scope.md R5). -/
def wMax : Nat := 22
/-- `N_MAX`, the longest chain (00_scope.md R5; 92_eei_decisions.md D26). -/
def nMax : Nat := 256
/-- `L_MAX`, the longest target frame in bytes (00_scope.md R5). -/
def lMax : Nat := 4
/-- `STATUS_BUSY_BIT` (00_scope.md R5). -/
def statusBusyBit : Nat := 1

/-- A register's access mode (40_registry.md R111, R113). -/
inductive Access where
  | rw
  | ro
  deriving DecidableEq, Repr, Inhabited

/-- The sentinel pair of a MOTION descriptor (41_conversion.md R131): threshold `T` and register value `S`. -/
structure Sentinel where
  threshold : Rat
  value     : Nat
  deriving DecidableEq, Repr

/-- A conversion descriptor (41_conversion.md R131). `MAXV` and `S` are integers that R131 bounds below by 0, so naturals. -/
inductive ConvDescriptor where
  | identity
  | motion (K : Rat) (maxV : Nat) (sent : Option Sentinel)
  | linear (K : Rat) (B : Rat)
  deriving DecidableEq, Repr

/-- One REGISTRY entry (40_registry.md R111), with the id it stands under. -/
structure Entry where
  id     : RegId
  name   : String
  width  : Nat
  access : Access
  conv   : ConvDescriptor
  deriving DecidableEq, Repr

/-- One SUBFIELDS entry (45_subfield.md R280), with the key it stands under. -/
structure SubField where
  reg  : RegId
  fid  : FieldId
  name : String
  off  : Nat
  fw   : Nat
  deriving DecidableEq, Repr

/-- `SLOT_ORDER` (00_scope.md R5, 43_chain.md R206). -/
inductive SlotOrder where
  | ascending
  | descending
  deriving DecidableEq, Repr, Inhabited

/-- `BIT_ORDER` (00_scope.md R5): recorded, and no rule depends on it (20_memory.md R64). -/
inductive BitOrder where
  | msbFirst
  | lsbFirst
  deriving DecidableEq, Repr, Inhabited

/-- The parameters of 00_scope.md R5. `registry` and `subfields` are finite partial maps held as lists; the first entry under a key
is the map's. `CONV` is the `conv` field of each entry. `W_MIN`, `W_MAX`, `N_MAX`, `L_MAX`, `STATUS_BUSY_BIT`, `ID_BITS` and
`VAL_BITS` have fixed values and are constants or widths of this package. -/
structure Config where
  n                   : Nat
  q                   : Nat
  registry            : List Entry
  subfields           : List SubField
  wire                : WireCodes
  slotOrder           : SlotOrder
  csReleasePerCycle   : Bool
  busyLinePresent     : List Bool
  statusReg           : RegId
  statusBusyActiveLow : Bool
  bitOrder            : BitOrder
  deriving DecidableEq, Repr

/-- The response registers a requester can read (10_state.md R28), as names; `bytes m` is `rsp_bytes[m]`. -/
inductive RspReg where
  | status
  | int
  | phys
  | unlimited
  | bytes (m : Fin 4)
  | len
  | bool
  | width
  | access
  deriving DecidableEq, Repr

/-- One requester's request port (10_state.md R30): `req_valid[q]`, `req_word[q]`, `req_phys[q]`. -/
structure ReqPort where
  valid : Bool
  word  : Word64
  phys  : Word64
  deriving DecidableEq, Repr, Inhabited

/-- What `BusXfer` returns (00_scope.md R8, 10_state.md R31): whether the transfer succeeded, and the received byte. Any value
may come (20_memory.md R70). -/
structure BusReply where
  ok : Bool
  rx : Byte
  deriving DecidableEq, Repr, Inhabited

/-- Everything the outside supplies to one step (10_state.md R30 to R34): the block reset input, the request ports (the port of
requester q is element q, and a port the list does not reach is not valid), the arbiter's wish among the waiting requesters
(43_chain.md R201 lets the choice be any of them), the busy lines' levels (bit k is `busy_line[k]`), the requesters that assert
`rsp_take`, the reply to this step's exchange, and the response registers that are read in this step. -/
structure Inputs where
  rst      : Bool
  reqs     : List ReqPort
  grant    : Nat
  busyLine : BitVec 256
  take     : List Nat
  bus      : BusReply
  rspRead  : List RspReg
  deriving DecidableEq, Repr, Inhabited

/-- FREE VALUE, log entry 2: the inputs of the n-th step for which the state's script holds none. Nothing is known of it, so what
is proved of a run holds for every environment (20_memory.md R70, 93_implementation_defined.md I4, I16). -/
opaque Config.freeInputs : Nat → Inputs

end Sys2Proof
end

