-- ==== Sys2Proof/Machine/Defaults.lean ====
section
/-! DEFINITION. The informative defaults of the parameters (00_scope.md R5, 30_encoding.md R86, 40_registry.md R115,
45_subfield.md R281, R285): from general knowledge, not in source, as the spec marks them (log entries 5 and 6). No operation
depends on them; they are only the configuration that State.reset carries. -/

namespace Sys2Proof

/-- The default wire bytes (30_encoding.md R86): `NOP_BYTE` = 0x00, `CMD_SET(id)` = 0b000 ∥ id, `CMD_GET(id)` = 0b001 ∥ id. They are
also the bytes of the opcode table's three wire rows. PRESUMED, log entry 5. -/
def WireCodes.table : WireCodes where
  nop    := 0x00#8
  setCmd := Vector.ofFn fun id => BitVec.ofNat 8 id.val
  getCmd := Vector.ofFn fun id => BitVec.ofNat 8 (0x20 + id.val)

namespace Defaults

/-- A MOTION descriptor whose constants the source leaves OPEN (41_conversion.md R141): scale 1 stands for the unknown scale.
DESIGN CHOICE, log entry 6. -/
def openMotion (maxV : Nat) (sent : Option Sentinel) : ConvDescriptor := .motion 1 maxV sent

/-- A LINEAR descriptor whose scale the source leaves OPEN (41_conversion.md R141), with the default offset 0 (R131).
DESIGN CHOICE, log entry 6. -/
def openLinear : ConvDescriptor := .linear 1 0

/-- The motion registers of 40_registry.md R115. MAX_SPEED has the source's scale 67/1000 (41_conversion.md R141); ACC's sentinel
value is 0xFFF (R115), its threshold is OPEN. -/
def motionEntries : List Entry :=
  [ ⟨0x04, "SPEED", 20, .ro, openMotion (2 ^ 20 - 1) none⟩,
    ⟨0x05, "ACC", 12, .rw, openMotion 0xFFF (some ⟨4095, 0xFFF⟩)⟩,
    ⟨0x06, "DEC", 12, .rw, openMotion 0xFFF none⟩,
    ⟨0x07, "MAX_SPEED", 10, .rw, .motion (mkRat 67 1000) 0x3FF none⟩,
    ⟨0x08, "MIN_SPEED", 13, .rw, openMotion 0xFFF none⟩,
    ⟨0x0D, "INT_SPEED", 14, .rw, openMotion 0x3FFF none⟩,
    ⟨0x15, "FS_SPD", 10, .rw, openMotion 0x3FF none⟩ ]

/-- The linear registers of 40_registry.md R115. -/
def linearEntries : List Entry :=
  [ ⟨0x09, "KVAL_HOLD", 8, .rw, openLinear⟩,
    ⟨0x0A, "KVAL_RUN", 8, .rw, openLinear⟩,
    ⟨0x0B, "KVAL_ACC", 8, .rw, openLinear⟩,
    ⟨0x0C, "KVAL_DEC", 8, .rw, openLinear⟩,
    ⟨0x0E, "ST_SLP", 8, .rw, openLinear⟩,
    ⟨0x0F, "FN_SLP_ACC", 8, .rw, openLinear⟩,
    ⟨0x10, "FN_SLP_DEC", 8, .rw, openLinear⟩,
    ⟨0x11, "K_THERM", 4, .rw, openLinear⟩,
    ⟨0x13, "OCD_TH", 4, .rw, openLinear⟩,
    ⟨0x14, "STALL_TH", 7, .rw, openLinear⟩ ]

/-- The identity registers of 40_registry.md R115. -/
def identityEntries : List Entry :=
  [ ⟨0x01, "ABS_POS", 22, .rw, .identity⟩,
    ⟨0x02, "EL_POS", 9, .rw, .identity⟩,
    ⟨0x03, "MARK", 22, .rw, .identity⟩,
    ⟨0x12, "ADC_OUT", 5, .ro, .identity⟩,
    ⟨0x16, "STEP_MODE", 8, .rw, .identity⟩,
    ⟨0x17, "ALARM_EN", 8, .rw, .identity⟩,
    ⟨0x18, "CONFIG", 16, .rw, .identity⟩,
    ⟨0x19, "STATUS", 16, .ro, .identity⟩ ]

/-- The informative default REGISTRY (40_registry.md R115). PRESUMED, log entry 5. -/
def registry : List Entry := motionEntries ++ linearEntries ++ identityEntries

/-- STEP_SEL, the one sub-field the source fixes (45_subfield.md R281), and the informative default SUBFIELDS (R285). PRESUMED but
for STEP_SEL's place in its register, log entry 5. -/
def subfields : List SubField :=
  [ ⟨0x16, 0, "STEP_SEL", 0, 3⟩,
    ⟨0x16, 1, "SYNC_SEL", 4, 3⟩,
    ⟨0x16, 2, "SYNC_EN", 7, 1⟩,
    ⟨0x18, 0, "OSC_SEL", 0, 3⟩,
    ⟨0x18, 1, "EXT_CLK", 3, 1⟩,
    ⟨0x18, 2, "SW_MODE", 4, 1⟩,
    ⟨0x18, 3, "EN_VSCOMP", 5, 1⟩,
    ⟨0x18, 4, "OC_SD", 7, 1⟩,
    ⟨0x18, 5, "POW_SR", 8, 2⟩,
    ⟨0x18, 6, "F_PWM_DEC", 10, 3⟩,
    ⟨0x18, 7, "F_PWM_INT", 13, 3⟩,
    ⟨0x08, 0, "LSPD_OPT", 12, 1⟩ ]

end Defaults

/-- The configuration that State.reset carries: the defaults of 00_scope.md R5, with N = 4 (the source's fixed four-device chain,
R6), Q = 1 and no busy line, which R5 leaves to the implementation. DESIGN CHOICE, log entry 6. -/
def Config.default : Config where
  n                   := 4
  q                   := 1
  registry            := Defaults.registry
  subfields           := Defaults.subfields
  wire                := WireCodes.table
  slotOrder           := .ascending
  csReleasePerCycle   := false
  busyLinePresent     := []
  statusReg           := 0x19
  statusBusyActiveLow := true
  bitOrder            := .msbFirst

end Sys2Proof
end

