-- ==== Sys2Proof/WellFormed.lean ====
section
/-! DEFINITION. Which instructions have words of their own. Every operand of a request operation is a bit field of exactly the
width 30_encoding.md R80 gives it, so every request operation does; an operand value an operation refuses (a width 0, a frame
length 5) is still a word, and its refusal is the operation's meaning (R92). A wire byte has a word of its own when the parameters
of R86 give no other wire row the same byte: with the defaults, `CMD_SET(0) = NOP_BYTE`, so WIRE_CMD_SET 0 has none. -/

namespace Sys2Proof

/-- The 32 register ids. -/
def allRegIds : List RegId := (List.range 32).map (BitVec.ofNat 5)

/-- `i` has a word of its own under the wire bytes `wc` (30_encoding.md R86, 10_state.md R40 item 7): a set command differs from
the no-operation byte and from every other set command, and a get command from those and from every other get command. A set
command whose byte is a get command's too keeps the byte, as decodeWire has it (DESIGN CHOICE, log entry 12). -/
def Instr.wellFormedFor (wc : WireCodes) : Instr → Bool
  | .wireCmdSet id => wc.set id != wc.nop && allRegIds.all fun k => wc.set k != wc.set id || k == id
  | .wireCmdGet id => wc.get id != wc.nop && (allRegIds.all fun k => wc.set k != wc.get id)
      && allRegIds.all fun k => wc.get k != wc.get id || k == id
  | .wireNop | .lookup _ | .convert _ _ | .invert _ _ | .encode _ _ | .decode _ _ | .setParam _ _ _ | .setRaw _ _ _
  | .getParam _ _ | .xferFrame _ _ _ | .setSubfield _ _ _ _ | .getSubfield _ _ _ | .busy _ => true

/-- `i` has a word of its own in spec/opcode_table.json, whose wire rows hold the default bytes. -/
def Instr.wellFormed (i : Instr) : Bool := i.wellFormedFor WireCodes.table

end Sys2Proof
end

