-- ==== Sys2Proof/Decode.lean ====
section
/-! DEFINITION. The two decoders (30_encoding.md): of a request, total on any pair of 64-bit words (R95), and of a wire byte, total
on any byte and any choice of the parameters of R86; then the encoder, written from the same tables, and the words of
spec/opcode_table.json by number. -/

namespace Sys2Proof

/-- Why a word names no instruction. The two request reasons are IllegalOperation (60_exceptions.md R300 code 8). -/
inductive DecodeError where
  /-- `REQ[31:26] ≠ 0` (30_encoding.md R84). -/
  | reservedBitsSet
  /-- OP is 0x0, 0xD, 0xE or 0xF (30_encoding.md R83). -/
  | reservedOperation
  /-- The byte is none of the wire codes: a data byte of a frame (30_encoding.md R87). -/
  | dataByte
  deriving DecidableEq, Repr

/-- The latched fields of a request (30_encoding.md R80, R81). -/
def Request.ofWords (req phys : Word64) : Request where
  op   := req.extractLsb' 0 4
  reg  := req.extractLsb' 4 5
  fld  := req.extractLsb' 9 4
  wl   := req.extractLsb' 13 5
  pos  := req.extractLsb' 18 8
  rsv  := req.extractLsb' 26 6
  val  := req.extractLsb' 32 32
  phys := ⟨phys.extractLsb' 0 32, phys.extractLsb' 32 32⟩

/-- The operation a latched request names, with the fields it reads (30_encoding.md R82); R84's check comes first, then R83's. -/
def decodeFields (r : Request) : Except DecodeError Instr :=
  if r.rsv ≠ 0#6 then .error .reservedBitsSet
  else match r.op with
    | 0x1#4 => .ok (.lookup r.reg)
    | 0x2#4 => .ok (.convert r.reg r.phys)
    | 0x3#4 => .ok (.invert r.reg r.val)
    | 0x4#4 => .ok (.encode r.wl r.val)
    | 0x5#4 => .ok (.decode r.wl r.val)
    | 0x6#4 => .ok (.setParam r.pos r.reg r.phys)
    | 0x7#4 => .ok (.setRaw r.pos r.reg r.val)
    | 0x8#4 => .ok (.getParam r.pos r.reg)
    | 0x9#4 => .ok (.xferFrame r.pos r.wl r.val)
    | 0xA#4 => .ok (.setSubfield r.pos r.reg r.fld r.val)
    | 0xB#4 => .ok (.getSubfield r.pos r.reg r.fld)
    | 0xC#4 => .ok (.busy r.pos)
    | _ => .error .reservedOperation

/-- The decoder of the request port (30_encoding.md R95). -/
def decodeRequest (req phys : Word64) : Except DecodeError Instr := decodeFields (Request.ofWords req phys)

/-- The decoder of one wire byte (30_encoding.md R86): the no-operation byte, a set command, a get command, or a data byte
(DESIGN CHOICE where one byte has several meanings, log entry 12). -/
def decodeWire (wc : WireCodes) (b : Byte) : Except DecodeError Instr :=
  if b = wc.nop then .ok .wireNop
  else match allRegIds.find? fun id => wc.set id == b with
    | some id => .ok (.wireCmdSet id)
    | none => match allRegIds.find? fun id => wc.get id == b with
      | some id => .ok (.wireCmdGet id)
      | none => .error .dataByte

/-- An instruction's words: `REQ` and `PHYS` on the request port, or one byte on the wire. -/
inductive Encoded where
  | request (req phys : Word64)
  | wireByte (b : Byte)
  deriving DecidableEq, Repr

/-- The decoder on either kind of word. -/
def decodeEncoded (wc : WireCodes) : Encoded → Except DecodeError Instr
  | .request req phys => decodeRequest req phys
  | .wireByte b => decodeWire wc b

/-- A request word from its fields (30_encoding.md R80), the reserved field 0. -/
def requestWord (op : BitVec 4) (reg : RegId) (fld : FieldId) (wl : BitVec 5) (pos : Pos) (val : Word32) : Word64 :=
  val ++ 0#6 ++ pos ++ wl ++ fld ++ reg ++ op

/-- The `PHYS` word (30_encoding.md R81). -/
def Phys.word (p : Phys) : Word64 := p.den ++ p.num

/-- The words of an instruction (30_encoding.md R80 to R82, R86); a field the operation does not read is 0. -/
def encode (wc : WireCodes) : Instr → Encoded
  | .lookup reg => .request (requestWord 0x1 reg 0 0 0 0) 0
  | .convert reg phys => .request (requestWord 0x2 reg 0 0 0 0) phys.word
  | .invert reg val => .request (requestWord 0x3 reg 0 0 0 val) 0
  | .encode w v => .request (requestWord 0x4 0 0 w 0 v) 0
  | .decode w bytes => .request (requestWord 0x5 0 0 w 0 bytes) 0
  | .setParam pos reg phys => .request (requestWord 0x6 reg 0 0 pos 0) phys.word
  | .setRaw pos reg val => .request (requestWord 0x7 reg 0 0 pos val) 0
  | .getParam pos reg => .request (requestWord 0x8 reg 0 0 pos 0) 0
  | .xferFrame pos len bytes => .request (requestWord 0x9 0 0 len pos bytes) 0
  | .setSubfield pos reg fld val => .request (requestWord 0xA reg fld 0 pos val) 0
  | .getSubfield pos reg fld => .request (requestWord 0xB reg fld 0 pos 0) 0
  | .busy pos => .request (requestWord 0xC 0 0 0 pos 0) 0
  | .wireNop => .wireByte wc.nop
  | .wireCmdSet id => .wireByte (wc.set id)
  | .wireCmdGet id => .wireByte (wc.get id)

/-- The words that the number `w` of `nbits` bits stands for, numbered as spec/opcode_table.json numbers them: up to 8 bits are a
wire byte, more are `REQ` from bit 0 and `PHYS` from bit 64. -/
def tableWords (nbits w : Nat) : Encoded :=
  if nbits ≤ 8 then .wireByte (BitVec.ofNat 8 w) else .request (BitVec.ofNat 64 w) (BitVec.ofNat 64 (w >>> 64))

/-- The instruction the decoder reads from a word of the opcode table (its wire rows hold the default bytes). -/
def decodeTableWord (nbits w : Nat) : Option Instr := (decodeEncoded WireCodes.table (tableWords nbits w)).toOption

end Sys2Proof
end

