-- ==== Sys2Proof/Machine/Flags.lean ====
section
/-! DEFINITION. The status indications (10_state.md R35: the block has no flags or condition codes): the error codes of rsp_status
(60_exceptions.md R300), and the two ways busy is read, from a line's level and from the status register's bit (44_busy.md R261,
R262). -/

namespace Sys2Proof.Machine

/-- The error kinds of 60_exceptions.md R300. -/
inductive ErrCode where
  | unknownRegister
  | invalidWidth
  | invalidPosition
  | valueOutOfRange
  | busTransferFailed
  | readOnlyRegister
  | unknownField
  | illegalOperation
  | invalidFrameLength
  deriving DecidableEq, Repr

/-- The status code of success (60_exceptions.md R300). -/
def statusOk : BitVec 4 := 0x0

/-- The status code of an error (60_exceptions.md R300). -/
def ErrCode.code : ErrCode → BitVec 4
  | .unknownRegister => 0x1
  | .invalidWidth => 0x2
  | .invalidPosition => 0x3
  | .valueOutOfRange => 0x4
  | .busTransferFailed => 0x5
  | .readOnlyRegister => 0x6
  | .unknownField => 0x7
  | .illegalOperation => 0x8
  | .invalidFrameLength => 0x9

/-- `rsp_access` (40_registry.md R114): 1 for a read-only register. -/
def accessBit : Access → BitVec 1
  | .rw => 0
  | .ro => 1

/-- Busy from a dedicated line's level (44_busy.md R261): low means busy. -/
def busyFromLine (level : Bool) : Bool := !level

/-- Busy from the status register's value (44_busy.md R262). -/
def busyFromStatus (activeLow : Bool) (x : Nat) : Bool :=
  if activeLow then !x.testBit statusBusyBit else x.testBit statusBusyBit

end Sys2Proof.Machine
end

