-- ==== Sys2Proof/Machine/Codec.lean ====
section
/-! DEFINITION. The bit-field codec's functions (42_codec.md R170, R172, R174) and a sub-field's (45_subfield.md R280, R282, R283). -/

namespace Sys2Proof.Machine

/-- `nb(w)`, the bytes of a `w`-bit field (00_scope.md R11). -/
def nb (w : Nat) : Nat := (w + 7) / 8

/-- The width check of 42_codec.md R174 and 40_registry.md R112. -/
def widthValid (w : Nat) : Bool := decide (wMin ≤ w) && decide (w ≤ wMax)

/-- `encode(v, w)` for a valid width (42_codec.md R170): `v mod 2^w`, most significant byte first. -/
def encodeBytes (v : Int) (w : Nat) : List Byte :=
  (List.range (nb w)).map fun m => BitVec.ofNat 8 ((v % 2 ^ w).toNat / 2 ^ (8 * (nb w - 1 - m)))

/-- The bytes read as one big-endian number. -/
def bigEndian (bs : List Byte) : Nat := bs.foldl (fun u b => u * 256 + b.toNat) 0

/-- `decode(B, w)` for a valid width (42_codec.md R172): the low `w` bits, the bits beyond the width ignored. -/
def decodeBytes (bs : List Byte) (w : Nat) : Nat := bigEndian bs % 2 ^ w

/-- `mask(f)` (45_subfield.md R280), as a 32-bit pattern. -/
def fieldMask (f : SubField) : Word32 := BitVec.ofNat 32 ((2 ^ f.fw - 1) <<< f.off)

/-- The value of field `f` in register value `x` (45_subfield.md R282). -/
def extractField (x : Nat) (f : SubField) : Nat := (x >>> f.off) &&& (2 ^ f.fw - 1)

/-- SET_SUBFIELD's `new` (45_subfield.md R283): the field replaced by `v mod 2^fw`, every other bit kept. -/
def insertField (old : Word32) (f : SubField) (v : Int) : Word32 :=
  (old &&& ~~~fieldMask f) ||| BitVec.ofNat 32 ((v % 2 ^ f.fw).toNat <<< f.off)

end Sys2Proof.Machine
end

