-- ==== Sys2Proof/Machine/Units.lean ====
section
/-! DEFINITION. The fixed-point unit converter's functions (41_conversion.md), in exact rational arithmetic (R142). -/

namespace Sys2Proof.Machine

/-- `round_ha(x)`: nearest integer, ties away from zero (00_scope.md R9). -/
def roundHa (x : Rat) : Int := if x < 0 then -(-x + 1 / 2).floor else (x + 1 / 2).floor

/-- `clamp(x, lo, hi)` (00_scope.md R10). -/
def clamp (x lo hi : Int) : Int := if x < lo then lo else if x > hi then hi else x

/-- The MOTION forward conversion (41_conversion.md R132): the sentinel first, then scale, round and clamp. -/
def convMotion (K : Rat) (maxV : Nat) (sent : Option Sentinel) (v : Rat) : Int :=
  match sent with
  | some p => if v > p.threshold then p.value else clamp (roundHa (v * K)) 0 maxV
  | none => clamp (roundHa (v * K)) 0 maxV

/-- The LINEAR forward conversion (41_conversion.md R134). -/
def convLinear (K B : Rat) (v : Rat) (w : Nat) : Int := clamp (roundHa (v * K + B)) 0 (2 ^ w - 1)

/-- The IDENTITY forward conversion (41_conversion.md R135): an integer that fits, or ValueOutOfRange. -/
def convIdentity (v : Rat) (w : Nat) : Except ErrCode Int :=
  if v.den = 1 ∧ 0 ≤ v.num ∧ v.num ≤ 2 ^ w - 1 then .ok v.num else .error .valueOutOfRange

/-- `conv(e, v)`: the case split of 41_conversion.md R136. -/
def convert (e : Entry) (v : Rat) : Except ErrCode Int :=
  match e.conv with
  | .identity => convIdentity v e.width
  | .motion K maxV sent => .ok (convMotion K maxV sent v)
  | .linear K B => .ok (convLinear K B v e.width)

/-- `conv⁻¹(e, r)`: the case split of 41_conversion.md R137; `none` is the sentinel read back, which has no number. -/
def invert (e : Entry) (r : Int) : Option Rat :=
  match e.conv with
  | .identity => some r
  | .motion K _ (some p) => if r = p.value then none else some (r / K)
  | .motion K _ none => some (r / K)
  | .linear K B => some ((r - B) / K)

end Sys2Proof.Machine
end

