-- ==== Sys2Proof/Machine/Registry.lean ====
section
/-! DEFINITION. The configuration tables as the block reads them (40_registry.md R111, 45_subfield.md R280, 44_busy.md R260,
43_chain.md R206), and the well-formedness of a configuration (10_state.md R40). -/

namespace Sys2Proof

open Machine

/-- `Registry(id)` (40_registry.md R111). -/
def Config.lookup (c : Config) (id : RegId) : Option Entry := c.registry.find? fun e => e.id == id

/-- `SUBFIELDS(id, fid)` (45_subfield.md R280). -/
def Config.subfield (c : Config) (id : RegId) (fid : FieldId) : Option SubField :=
  c.subfields.find? fun f => f.reg == id && f.fid == fid

/-- `BUSY_LINE_PRESENT[k]` (44_busy.md R260); a position the list does not reach has no line (DEDUCED, log entry 16). -/
def Config.hasBusyLine (c : Config) (k : Nat) : Bool := c.busyLinePresent.getD k false

/-- `slotpos(t)`, the chain position that wire index `t` carries (43_chain.md R206). -/
def Config.slotpos (c : Config) (t : Nat) : Nat :=
  match c.slotOrder with
  | .ascending => t
  | .descending => c.n - 1 - t

/-- A descriptor obeys 41_conversion.md R131 for a register of width `w` (10_state.md R40 item 4). -/
def ConvDescriptor.wellFormed (w : Nat) : ConvDescriptor → Bool
  | .identity => true
  | .motion K maxV sent => decide (0 < K) && decide (maxV ≤ 2 ^ w - 1)
      && match sent with
        | none => true
        | some p => decide (p.value ≤ 2 ^ w - 1)
  | .linear K _ => decide (0 < K)

/-- A REGISTRY entry's width and descriptor are legal (10_state.md R40 items 3 and 4). -/
def Entry.wellFormed (e : Entry) : Bool := widthValid e.width && e.conv.wellFormed e.width

/-- A SUBFIELDS entry names a register and fits it (10_state.md R40 item 5). -/
def Config.subfieldFits (c : Config) (f : SubField) : Bool :=
  match c.lookup f.reg with
  | none => false
  | some e => decide (1 ≤ f.fw) && decide (f.off + f.fw ≤ e.width)

/-- The status register serves every position that has no busy line (10_state.md R40 item 6). -/
def Config.statusServes (c : Config) : Bool :=
  (List.range c.n).all c.hasBusyLine
    || match c.lookup c.statusReg with
      | none => false
      | some e => decide (statusBusyBit < e.width)

/-- A configuration is well-formed (10_state.md R40, items 1 to 7 in order; ids are in range by their type). The last conjunct is
the range of `Q` in 00_scope.md R5 (DEDUCED, log entry 10). -/
def Config.wellFormed (c : Config) : Bool :=
  (decide (1 ≤ c.n) && decide (c.n ≤ nMax))
    && decide (c.registry.map (·.id)).Nodup
    && c.registry.all (·.wellFormed)
    && c.subfields.all c.subfieldFits
    && c.statusServes
    && c.registry.all (fun e => c.wire.set e.id != c.wire.nop && c.wire.get e.id != c.wire.nop)
    && decide (1 ≤ c.q)

end Sys2Proof
end

