-- ==== Sys2Proof/Machine/Operands.lean ====
section
/-! DEFINITION. The operand forms of a request (30_encoding.md R81, R85, R91) and the checks that operands meet in ADDRESSING, one
definition per check (60_exceptions.md R300, R301; 40_registry.md R112, R113). -/

namespace Sys2Proof.Machine

/-- `NUM / DEN` as an exact rational; `DEN = 0` is ValueOutOfRange (30_encoding.md R81). -/
def physValue (p : Phys) : Except ErrCode Rat :=
  if p.den = 0#32 then .error .valueOutOfRange else .ok ((p.num.toInt : Rat) / (p.den.toNat : Rat))

/-- `BYTES[0..3]`, the first in the most significant position (30_encoding.md R85). -/
def operandBytes (v : Word32) : List Byte :=
  [v.extractLsb' 24 8, v.extractLsb' 16 8, v.extractLsb' 8 8, v.extractLsb' 0 8]

/-- The registry lookup and the runtime width check (40_registry.md R112). -/
def checkRegister (c : Config) (reg : RegId) : Except ErrCode Entry :=
  match c.lookup reg with
  | none => .error .unknownRegister
  | some e => if widthValid e.width then .ok e else .error .invalidWidth

/-- The register and sub-field lookup of 45_subfield.md R282 and R283, in their order: register, field, width. -/
def checkField (c : Config) (reg : RegId) (fld : FieldId) : Except ErrCode (Entry × SubField) :=
  match c.lookup reg with
  | none => .error .unknownRegister
  | some e => match c.subfield reg fld with
    | none => .error .unknownField
    | some f => if widthValid e.width && decide (f.off + f.fw ≤ e.width) then .ok (e, f) else .error .invalidWidth

/-- The position is inside the chain (20_memory.md R62). -/
def checkPosition (c : Config) (pos : Pos) : Except ErrCode Unit :=
  if c.n ≤ pos.toNat then .error .invalidPosition else .ok ()

/-- The register may be set (40_registry.md R113). -/
def checkWritable (e : Entry) : Except ErrCode Unit :=
  match e.access with
  | .ro => .error .readOnlyRegister
  | .rw => .ok ()

/-- The frame length of XFER_FRAME (43_chain.md R224). -/
def checkFrameLength (len : BitVec 5) : Except ErrCode Unit :=
  if len.toNat < 1 ∨ lMax < len.toNat then .error .invalidFrameLength else .ok ()

/-- A set frame: the command byte, then the value's bytes (30_encoding.md R87, 43_chain.md R203 build_set). -/
def setFrame (c : Config) (id : RegId) (w : Nat) (r : Int) : List Byte := c.wire.set id :: encodeBytes r w

/-- A get frame: the command byte, then a no-operation byte per data byte (30_encoding.md R87, 43_chain.md R203 build_get). -/
def getFrame (c : Config) (id : RegId) (w : Nat) : List Byte := c.wire.get id :: List.replicate (nb w) c.wire.nop

/-- The lengths of the set and get frames that open with byte `b` (30_encoding.md R90): `1 + nb(w)` for each register of the
registry that has `b` as its set or get command byte, whatever else the byte may mean. -/
def frameLengths (c : Config) (b : Byte) : List Nat :=
  (allRegIds.filter fun id => c.wire.set id == b || c.wire.get id == b).filterMap fun id =>
    (c.lookup id).map fun e => 1 + nb e.width

/-- The length that byte `b` tells of a frame it opens as a command byte (30_encoding.md R90): the one length its registers give
it. Where they give several, which R40 does not forbid, or none, the byte alone tells no length (DEDUCED, log entry 19). -/
def frameLengthOf (c : Config) (b : Byte) : Option Nat :=
  match frameLengths c b with
  | [] => none
  | n :: rest => if rest.all (· == n) then some n else none

/-- SET_PARAM's checks in order and what they give: the entry and the register integer (43_chain.md R220). -/
def setParamOperands (c : Config) (pos : Pos) (reg : RegId) (phys : Phys) : Except ErrCode (Entry × Int) := do
  let e ← checkRegister c reg
  checkPosition c pos
  checkWritable e
  let v ← physValue phys
  let r ← convert e v
  pure (e, r)

/-- SET_RAW's checks in order and what they give: the entry and `VAL mod 2^w` (43_chain.md R221). -/
def setRawOperands (c : Config) (pos : Pos) (reg : RegId) (val : Word32) : Except ErrCode (Entry × Int) := do
  let e ← checkRegister c reg
  checkPosition c pos
  checkWritable e
  pure (e, val.toInt % 2 ^ e.width)

/-- GET_PARAM's checks in order (43_chain.md R222). -/
def getParamOperands (c : Config) (pos : Pos) (reg : RegId) : Except ErrCode Entry := do
  let e ← checkRegister c reg
  checkPosition c pos
  pure e

/-- XFER_FRAME's checks in order and its frame (43_chain.md R224). -/
def xferOperands (c : Config) (pos : Pos) (len : BitVec 5) (bytes : Word32) : Except ErrCode (List Byte) := do
  checkFrameLength len
  checkPosition c pos
  pure ((operandBytes bytes).take len.toNat)

/-- GET_SUBFIELD's checks in order (45_subfield.md R282). -/
def getSubfieldOperands (c : Config) (pos : Pos) (reg : RegId) (fld : FieldId) : Except ErrCode (Entry × SubField) := do
  let ef ← checkField c reg fld
  checkPosition c pos
  pure ef

/-- SET_SUBFIELD's checks in order (45_subfield.md R283). -/
def setSubfieldOperands (c : Config) (pos : Pos) (reg : RegId) (fld : FieldId) : Except ErrCode (Entry × SubField) := do
  let ef ← checkField c reg fld
  checkPosition c pos
  checkWritable ef.1
  pure ef

/-- INVERT's operand (41_conversion.md R137): the entry and the register integer, which must lie in `[0, 2^w)`. -/
def invertOperands (c : Config) (reg : RegId) (val : Word32) : Except ErrCode (Entry × Int) := do
  let e ← checkRegister c reg
  if val.toInt < 0 ∨ 2 ^ e.width - 1 < val.toInt then .error .valueOutOfRange else pure (e, val.toInt)

/-- CONVERT's checks in order and the register integer (41_conversion.md R136). -/
def convertOperands (c : Config) (reg : RegId) (phys : Phys) : Except ErrCode Int := do
  let e ← checkRegister c reg
  let v ← physValue phys
  convert e v

end Sys2Proof.Machine
end

