-- ==== Sys2Proof/Machine/State.lean ====
section
/-! DEFINITION. The machine's state (10_state.md R20 to R29, R39), the reasons a step can stop, and the state right after reset
(R41, 70_reset_and_hazards.md R340). -/

namespace Sys2Proof.Machine

/-- The transaction state machine's four values (10_state.md R22). -/
inductive Fsm where
  | idle
  | addressing
  | shifting
  | complete
  deriving DecidableEq, Repr, Inhabited

/-- What the bus port shows (10_state.md R31, R38): chip-select changes, and each exchange with the byte sent and the byte received
(none when the transfer failed). -/
inductive BusEvent where
  | csAssert
  | csDeassert
  | xfer (sent : Byte) (received : Option Byte)
  deriving DecidableEq, Repr

/-- The block's state. `cfg` is the configuration, a parameter of the step relation (10_state.md R20) that the step carries and
never writes (log entry 9); the fields from `fsm` to `chainSuspect` are exactly the elements of R20; `inp`, `script` and `tick` are the
environment's inputs (log entry 2) and `wire` is what the bus port has shown so far, oldest first (log entry 4). -/
structure State where
  cfg          : Config
  fsm          : Fsm
  owner        : Option Nat
  req          : Request
  frame        : Vector Byte 4
  flen         : Nat
  echo         : Vector Byte 4
  j            : Nat
  t            : Nat
  phase        : Fin 2
  csAsserted   : Bool
  rspValid     : Bool
  rspStatus    : BitVec 4
  rspInt       : Word32
  rspPhys      : Rat
  rspUnlimited : Bool
  rspBytes     : Vector Byte 4
  rspLen       : BitVec 3
  rspBool      : Bool
  rspWidth     : BitVec 5
  rspAccess    : BitVec 1
  chainSuspect : Bool
  inp          : Inputs
  script       : List Inputs
  tick         : Nat
  wire         : List BusEvent
  deriving DecidableEq, Repr

/-- Why a step stops with a fault. -/
inductive Fault where
  /-- Raised by the step when the environment reads a response register that has no value (10_state.md R37, 93 U1 and U2 ask for a
  fault). Safe. -/
  | unspecifiedResponse (r : RspReg)
  /-- Raised at the end of a transaction whose latched request starts none: no run reaches such a state (43_chain.md R202), and no
  rule says how one would end (log entry 14). Safe. -/
  | noTransaction
  deriving DecidableEq, Repr

/-- Why a step is refused. -/
inductive Refusal where
  /-- Raised by exec for an instruction that has no meaning yet. Safe. -/
  | notModelled (mnemonic : String)
  /-- Raised by the step for a configuration that breaks 10_state.md R40, which gives it no meaning. Safe. -/
  | illFormedConfiguration
  deriving DecidableEq, Repr

/-- The inputs at the release of reset: `rst` deasserted, no request, no take, no read, every busy line high, a successful reply of
0. DESIGN CHOICE, log entry 2: no statement rests on these levels. -/
def quietInputs : Inputs where
  rst      := false
  reqs     := []
  grant    := 0
  busyLine := BitVec.allOnes 256
  take     := []
  bus      := ⟨true, 0⟩
  rspRead  := []

/-- A request of zeros: what `req` holds at reset. DESIGN CHOICE, log entry 1. -/
def zeroRequest : Request := ⟨0, 0, 0, 0, 0, 0, 0, ⟨0, 0⟩⟩

/-- The machine right after reset (10_state.md R41). Where R41 says unspecified (`req`, `frame`, `flen`, `echo` and the response
registers) the value is a DESIGN CHOICE, log entry 1. -/
def State.reset : State where
  cfg          := Config.default
  fsm          := .idle
  owner        := none
  req          := zeroRequest
  frame        := Vector.replicate 4 0
  flen         := 1
  echo         := Vector.replicate 4 0
  j            := 0
  t            := 0
  phase        := 0
  csAsserted   := false
  rspValid     := false
  rspStatus    := 0
  rspInt       := 0
  rspPhys      := 0
  rspUnlimited := false
  rspBytes     := Vector.replicate 4 0
  rspLen       := 0
  rspBool      := false
  rspWidth     := 0
  rspAccess    := 0
  chainSuspect := false
  inp          := quietInputs
  script       := []
  tick         := 0
  wire         := []

end Sys2Proof.Machine
end

