-- ==== Sys2Proof/Machine/Ops.lean ====
section
/-! DEFINITION. The named operations over the state: error entry and error return (60_exceptions.md R302, R303), responses
(43_chain.md R209), the start of a transaction (R202), one byte exchange's parts (R205 to R208), bus failure (R210), accept (R201),
block reset (70_reset_and_hazards.md R340), and the ports (10_state.md R30 to R34, R37). -/

namespace Sys2Proof.Machine

/-- The outcome of a step of this machine. -/
abbrev Outcome := Host.Outcome State Fault Refusal

namespace State

/-- Enter COMPLETE with a status code (43_chain.md R209, 60_exceptions.md R302). -/
def completeWith (code : BitVec 4) (s : State) : State := { s with rspStatus := code, rspValid := true, fsm := .complete }

/-- ERROR ENTRY, the one shared operation (60_exceptions.md R302, 43_chain.md R202): `rsp_status` and `rsp_valid` are written, the
block moves to COMPLETE, and nothing else changes. -/
def raise (e : ErrCode) (s : State) : State := s.completeWith e.code

/-- `respond(OK, …)` after the response fields are written (00_scope.md R8, 43_chain.md R209). -/
def respondOk (s : State) : State := s.completeWith statusOk

/-- ERROR RETURN, and the end of every request: the TAKE step (43_chain.md R209, 60_exceptions.md R303). -/
def takeResponse (s : State) : State :=
  { s with rspValid := false, owner := none, j := 0, t := 0, phase := 0, fsm := .idle }

/-- The first bytes of a 4-byte buffer replaced by `bs`, the others kept (DESIGN CHOICE, log entry 15). -/
def overlay (old : Vector Byte 4) (bs : List Byte) : Vector Byte 4 := Vector.ofFn fun m => bs[m.val]?.getD old[m]

/-- `CS(asserted)` (43_chain.md R208). -/
def assertCs (s : State) : State := { s with csAsserted := true, wire := s.wire ++ [.csAssert] }

/-- `CS(deasserted)` (43_chain.md R208). -/
def deassertCs (s : State) : State := { s with csAsserted := false, wire := s.wire ++ [.csDeassert] }

/-- Start a transaction with a frame (43_chain.md R202, R203, R204). -/
def startTransaction (bytes : List Byte) (s : State) : State :=
  assertCs { s with frame := overlay s.frame bytes, flen := bytes.length, j := 0, t := 0, fsm := .shifting }

/-- The byte of the current slot (43_chain.md R205, R206): the frame's in the target's slot, the no-operation byte elsewhere. -/
def slotByte (s : State) : Byte :=
  if s.cfg.slotpos s.t = s.req.pos.toNat then s.frame.getD s.j 0 else s.cfg.wire.nop

/-- Bus failure (43_chain.md R210). -/
def busFail (s : State) : State := ({ s.deassertCs with chainSuspect := true }).raise .busTransferFailed

/-- A successful exchange of `b` is shown on the bus, and the target's echo is captured (43_chain.md R207). -/
def capture (b : Byte) (s : State) : State :=
  { s with
    echo := if s.cfg.slotpos s.t = s.req.pos.toNat then s.echo.setIfInBounds s.j s.inp.bus.rx else s.echo
    wire := s.wire ++ [.xfer b (some s.inp.bus.rx)] }

/-- Chip-select between two byte-cycles (43_chain.md R208). -/
def betweenCycles (s : State) : State := if s.cfg.csReleasePerCycle then s.deassertCs.assertCs else s

/-- The bytes echoed from the target's slot, one per byte-cycle (43_chain.md R207). -/
def echoBytes (s : State) : List Byte := s.echo.toList.take s.flen

/-- The data bytes of a buffer: those after the command byte (43_chain.md R203). -/
def dataBytes (v : Vector Byte 4) (w : Nat) : List Byte := (v.toList.drop 1).take (nb w)

/-- The value the target sent back in a get frame (43_chain.md R222). -/
def echoValue (s : State) (w : Nat) : Nat := decodeBytes (dataBytes s.echo w) w

/-- The value the set frame carries: what was sent (10_state.md R28 `rsp_int`; DEDUCED, log entry 7). -/
def sentValue (s : State) (w : Nat) : Nat := decodeBytes (dataBytes s.frame w) w

/-- The registers XFER_FRAME's response holds, and the other register operations' with it: the echo (43_chain.md R220 to R224). -/
def withEcho (s : State) : State :=
  { s with rspBytes := overlay s.rspBytes s.echoBytes, rspLen := BitVec.ofNat 3 s.flen }

/-- The response of a set operation (43_chain.md R220, R221): the value sent and the echo. -/
def respondSent (w : Nat) (s : State) : State := ({ s with rspInt := BitVec.ofNat 32 (s.sentValue w) }).withEcho.respondOk

/-- The response of GET_PARAM (43_chain.md R222): the value read and the echo. -/
def respondRead (w : Nat) (s : State) : State := ({ s with rspInt := BitVec.ofNat 32 (s.echoValue w) }).withEcho.respondOk

/-- The requesters with a valid request (43_chain.md R201). -/
def waiting (s : State) : List (Nat × ReqPort) :=
  (List.range s.cfg.q).filterMap fun q => match s.inp.reqs[q]? with
    | some p => if p.valid then some (q, p) else none
    | none => none

/-- The arbiter's choice: the wished requester if it waits, else the first that waits; every waiting requester is some wish's
choice (43_chain.md R201). -/
def granted (s : State) : Option (Nat × ReqPort) :=
  match s.waiting.find? fun w => w.1 == s.inp.grant with
  | some w => some w
  | none => s.waiting.head?

/-- The ACCEPT step's effect (43_chain.md R201). -/
def accept (q : Nat) (p : ReqPort) (s : State) : State :=
  { s with owner := some q, req := Request.ofWords p.word p.phys, phase := 0, j := 0, t := 0, fsm := .addressing }

/-- The step in IDLE: accept a waiting request, or none (43_chain.md R201, 60_exceptions.md R312). -/
def idleStep (s : State) : State :=
  match s.granted with
  | some w => s.accept w.1 w.2
  | none => s

/-- The owner asserts `rsp_take` (10_state.md R34). -/
def taken (s : State) : Bool :=
  match s.owner with
  | some q => s.inp.take.contains q
  | none => false

/-- The step in COMPLETE: the response is taken, or the block waits (43_chain.md R209, 70_reset_and_hazards.md R349). -/
def completeStep (s : State) : State := if s.taken then s.takeResponse else s

/-- Block reset (70_reset_and_hazards.md R340 to R342): every element at its reset value, the configuration kept, chip-select
deasserted (DEDUCED, log entry 18). -/
def blockReset (s : State) : State :=
  { State.reset with
    cfg := s.cfg, inp := s.inp, script := s.script, tick := s.tick
    wire := if s.csAsserted then s.wire ++ [.csDeassert] else s.wire }

/-- The environment's inputs for the next step: the script's, or free ones (log entry 2). -/
def nextInputs (s : State) : State :=
  match s.script with
  | x :: rest => { s with inp := x, script := rest }
  | [] => { s with inp := Config.freeInputs s.tick, tick := s.tick + 1 }

/-- `req_ready` of every requester (10_state.md R30). -/
def reqReady (s : State) : Bool := s.fsm == .idle

/-- The operations that write `rsp_int` (10_state.md R28), BUSY only on its status path. -/
def writesInt (s : State) : Bool :=
  [0x2#4, 0x5#4, 0x6#4, 0x7#4, 0x8#4, 0xA#4, 0xB#4].contains s.req.op
    || (s.req.op == 0xC#4 && !s.cfg.hasBusyLine s.req.pos.toNat)

/-- The operations that write `rsp_bytes` and `rsp_len` (10_state.md R28). -/
def writesBytes (s : State) : Bool := [0x4#4, 0x6#4, 0x7#4, 0x8#4, 0x9#4].contains s.req.op

/-- The response register has a value (10_state.md R28, R37): a response is held, and the operation wrote the register. -/
def specified (s : State) (r : RspReg) : Bool :=
  s.rspValid && match r with
    | .status => true
    | .int => s.rspStatus == statusOk && s.writesInt
    | .phys => s.rspStatus == statusOk && s.req.op == 0x3#4 && !s.rspUnlimited
    | .unlimited => s.rspStatus == statusOk && s.req.op == 0x3#4
    | .bytes m => s.rspStatus == statusOk && s.writesBytes && decide (m.val < s.rspLen.toNat)
    | .len => s.rspStatus == statusOk && s.writesBytes
    | .bool => s.rspStatus == statusOk && s.req.op == 0xC#4
    | .width | .access => s.rspStatus == statusOk && s.req.op == 0x1#4

/-- The first response register read in this step that has no value (10_state.md R37); while `rst` is asserted `rsp_valid` is 0
(70_reset_and_hazards.md R340), so none has (DEDUCED, log entry 13). -/
def badRead (s : State) : Option RspReg := s.inp.rspRead.find? fun r => s.inp.rst || !s.specified r

end State

/-- The outcome of an operation that validates and then computes or starts a transaction (43_chain.md R202): an error is entered,
a result goes on. -/
def settle {α : Type} (s : State) (checks : Except ErrCode α) (go : α → State) : Outcome :=
  match checks with
  | .error e => .next (s.raise e)
  | .ok a => .next (go a)

/-- The next state of an outcome gets the next step's inputs. -/
def advance : Outcome → Outcome
  | .next s => .next s.nextInputs
  | .fault r => .fault r
  | .refused r => .refused r

end Sys2Proof.Machine
end

