-- ==== Sys2Proof/Machine/BitField.lean ====
section
/-! DEFINITION. The codec family: ENCODE and DECODE (42_codec.md). -/

namespace Sys2Proof.Machine

/-- The width operand of ENCODE and DECODE (42_codec.md R174). -/
def checkWidth (w : BitVec 5) : Except ErrCode Nat :=
  if widthValid w.toNat then .ok w.toNat else .error .invalidWidth

/-- ENCODE (42_codec.md R171). -/
def execEncode (w : BitVec 5) (v : Word32) (s : State) : Outcome :=
  settle s (checkWidth w) fun n =>
    ({ s with
        rspBytes := State.overlay s.rspBytes (encodeBytes v.toInt n)
        rspLen := BitVec.ofNat 3 (nb n) }).respondOk

/-- DECODE (42_codec.md R173). -/
def execDecode (w : BitVec 5) (bytes : Word32) (s : State) : Outcome :=
  settle s (checkWidth w) fun n =>
    ({ s with rspInt := BitVec.ofNat 32 (decodeBytes ((operandBytes bytes).take (nb n)) n) }).respondOk

end Sys2Proof.Machine
end

