-- ==== Sys2Proof/Machine/Converter.lean ====
section
/-! DEFINITION. The unit converter family: CONVERT and INVERT (41_conversion.md). -/

namespace Sys2Proof.Machine

/-- CONVERT (41_conversion.md R136). -/
def execConvert (reg : RegId) (phys : Phys) (s : State) : Outcome :=
  settle s (convertOperands s.cfg reg phys) fun r => ({ s with rspInt := BitVec.ofInt 32 r }).respondOk

/-- INVERT (41_conversion.md R137): a sentinel read back writes `rsp_unlimited` alone. -/
def execInvert (reg : RegId) (val : Word32) (s : State) : Outcome :=
  settle s (invertOperands s.cfg reg val) fun er =>
    match invert er.1 er.2 with
    | some v => ({ s with rspPhys := v, rspUnlimited := false }).respondOk
    | none => ({ s with rspUnlimited := true }).respondOk

end Sys2Proof.Machine
end

