-- ==== Sys2Proof/Machine/Lookup.lean ====
section
/-! DEFINITION. The registry family: LOOKUP (40_registry.md). -/

namespace Sys2Proof.Machine

/-- LOOKUP (40_registry.md R114). -/
def execLookup (reg : RegId) (s : State) : Outcome :=
  settle s (checkRegister s.cfg reg) fun e =>
    ({ s with rspWidth := BitVec.ofNat 5 e.width, rspAccess := accessBit e.access }).respondOk

end Sys2Proof.Machine
end

