-- ==== Sys2Proof/Machine/Busy.lean ====
section
/-! DEFINITION. The busy family: BUSY (44_busy.md). -/

namespace Sys2Proof.Machine

/-- BUSY in ADDRESSING (44_busy.md R263): the position first, then the line's level, or a get frame of the status register. -/
def execBusy (pos : Pos) (s : State) : Outcome :=
  match checkPosition s.cfg pos with
  | .error e => .next (s.raise e)
  | .ok () =>
    if s.cfg.hasBusyLine pos.toNat then
      .next ({ s with rspBool := busyFromLine (s.inp.busyLine.getLsbD pos.toNat) }).respondOk
    else
      settle s (checkRegister s.cfg s.cfg.statusReg) fun e =>
        s.startTransaction (getFrame s.cfg s.cfg.statusReg e.width)

/-- BUSY's finish() on the status path (44_busy.md R262, R263). -/
def finishBusy (s : State) : Outcome :=
  match s.cfg.lookup s.cfg.statusReg with
  | some e =>
    .next ({ s with
      rspInt := BitVec.ofNat 32 (s.echoValue e.width)
      rspBool := busyFromStatus s.cfg.statusBusyActiveLow (s.echoValue e.width) }).respondOk
  | none => .fault .noTransaction

end Sys2Proof.Machine
end

