-- ==== Sys2Proof/Machine/Chain.lean ====
section
/-! DEFINITION. The register and raw-frame operations of the chain engine (43_chain.md section 3): for each, its ADDRESSING part
(exec…) and the completion part that finish() runs after the last exchange (finish…). -/

namespace Sys2Proof.Machine

/-- SET_PARAM in ADDRESSING (43_chain.md R220). -/
def execSetParam (pos : Pos) (reg : RegId) (phys : Phys) (s : State) : Outcome :=
  settle s (setParamOperands s.cfg pos reg phys) fun er =>
    s.startTransaction (setFrame s.cfg reg er.1.width er.2)

/-- SET_PARAM's finish() (43_chain.md R220). -/
def finishSetParam (reg : RegId) (s : State) : Outcome :=
  match s.cfg.lookup reg with
  | some e => .next (s.respondSent e.width)
  | none => .fault .noTransaction

/-- SET_RAW in ADDRESSING (43_chain.md R221). -/
def execSetRaw (pos : Pos) (reg : RegId) (val : Word32) (s : State) : Outcome :=
  settle s (setRawOperands s.cfg pos reg val) fun er =>
    s.startTransaction (setFrame s.cfg reg er.1.width er.2)

/-- SET_RAW's finish() (43_chain.md R221). -/
def finishSetRaw (reg : RegId) (s : State) : Outcome :=
  match s.cfg.lookup reg with
  | some e => .next (s.respondSent e.width)
  | none => .fault .noTransaction

/-- GET_PARAM in ADDRESSING (43_chain.md R222). -/
def execGetParam (pos : Pos) (reg : RegId) (s : State) : Outcome :=
  settle s (getParamOperands s.cfg pos reg) fun e => s.startTransaction (getFrame s.cfg reg e.width)

/-- GET_PARAM's finish() (43_chain.md R222). -/
def finishGetParam (reg : RegId) (s : State) : Outcome :=
  match s.cfg.lookup reg with
  | some e => .next (s.respondRead e.width)
  | none => .fault .noTransaction

/-- XFER_FRAME in ADDRESSING (43_chain.md R224). -/
def execXferFrame (pos : Pos) (len : BitVec 5) (bytes : Word32) (s : State) : Outcome :=
  settle s (xferOperands s.cfg pos len bytes) fun frame => s.startTransaction frame

/-- XFER_FRAME's finish() (43_chain.md R224). -/
def finishXferFrame (s : State) : Outcome := .next s.withEcho.respondOk

end Sys2Proof.Machine
end

