-- ==== Sys2Proof/Machine/Subfield.lean ====
section
/-! DEFINITION. The sub-field family: GET_SUBFIELD and SET_SUBFIELD (45_subfield.md). -/

namespace Sys2Proof.Machine

/-- GET_SUBFIELD in ADDRESSING (45_subfield.md R282). -/
def execGetSubfield (pos : Pos) (reg : RegId) (fld : FieldId) (s : State) : Outcome :=
  settle s (getSubfieldOperands s.cfg pos reg fld) fun ef => s.startTransaction (getFrame s.cfg reg ef.1.width)

/-- GET_SUBFIELD's finish() (45_subfield.md R282). -/
def finishGetSubfield (reg : RegId) (fld : FieldId) (s : State) : Outcome :=
  match s.cfg.lookup reg, s.cfg.subfield reg fld with
  | some e, some f => .next ({ s with rspInt := BitVec.ofNat 32 (extractField (s.echoValue e.width) f) }).respondOk
  | _, _ => .fault .noTransaction

/-- SET_SUBFIELD in ADDRESSING (45_subfield.md R283): the read transaction starts. -/
def execSetSubfield (pos : Pos) (reg : RegId) (fld : FieldId) (_val : Word32) (s : State) : Outcome :=
  settle s (setSubfieldOperands s.cfg pos reg fld) fun ef => s.startTransaction (getFrame s.cfg reg ef.1.width)

/-- The value SET_SUBFIELD writes back (45_subfield.md R283 `new`), from the value just read. -/
def subfieldUpdate (s : State) (e : Entry) (f : SubField) (val : Word32) : Word32 :=
  insertField (BitVec.ofNat 32 (s.echoValue e.width)) f val.toInt

/-- SET_SUBFIELD's finish() (45_subfield.md R283): after the read the write transaction starts; after the write the response. -/
def finishSetSubfield (reg : RegId) (fld : FieldId) (val : Word32) (s : State) : Outcome :=
  match s.cfg.lookup reg, s.cfg.subfield reg fld with
  | some e, some f =>
    if s.phase = 0 then
      .next (({ s with phase := 1 }).startTransaction
        (setFrame s.cfg reg e.width (subfieldUpdate s e f val).toNat))
    else .next ({ s with rspInt := BitVec.ofNat 32 (s.sentValue e.width) }).respondOk
  | _, _ => .fault .noTransaction

end Sys2Proof.Machine
end

