-- ==== Sys2Proof/Machine/Wire.lean ====
section
/-! DEFINITION. The wire family: the SHIFT step of the engine (43_chain.md R205) and the three wire bytes it exchanges by name
(30_encoding.md R86 to R88). -/

namespace Sys2Proof.Machine

/-- `finish()` (43_chain.md R209): the completion part of the latched request's operation. An operation that starts no transaction
has none. -/
def finish (s : State) : Outcome :=
  match decodeFields s.req with
  | .ok (.setParam _ reg _) => finishSetParam reg s
  | .ok (.setRaw _ reg _) => finishSetRaw reg s
  | .ok (.getParam _ reg) => finishGetParam reg s
  | .ok (.xferFrame _ _ _) => finishXferFrame s
  | .ok (.setSubfield _ reg fld val) => finishSetSubfield reg fld val s
  | .ok (.getSubfield _ reg fld) => finishGetSubfield reg fld s
  | .ok (.busy _) => finishBusy s
  | .ok (.lookup _) | .ok (.convert _ _) | .ok (.invert _ _) | .ok (.encode _ _) | .ok (.decode _ _)
  | .ok .wireNop | .ok (.wireCmdSet _) | .ok (.wireCmdGet _) | .error _ => .fault .noTransaction

/-- One byte exchange that sends `b`, and what follows it (43_chain.md R205): the failure, the next slot, the next byte-cycle, or
the end of the transaction. That this is the meaning of the wire bytes is a DESIGN CHOICE, log entry 12. -/
def exchange (b : Byte) (s : State) : Outcome :=
  if s.inp.bus.ok then
    if s.t + 1 < s.cfg.n then .next { s.capture b with t := s.t + 1 }
    else if s.j + 1 < s.flen then .next (State.betweenCycles { s.capture b with t := 0, j := s.j + 1 })
    else finish (State.deassertCs { s.capture b with t := 0 })
  else .next (State.busFail { s with wire := s.wire ++ [.xfer b none] })

/-- WIRE_NOP: one exchange of the no-operation byte (43_chain.md R206). -/
def execWireNop (s : State) : Outcome := exchange s.cfg.wire.nop s

/-- WIRE_CMD_SET: one exchange of the byte that opens a set frame (43_chain.md R203). -/
def execWireCmdSet (id : RegId) (s : State) : Outcome := exchange (s.cfg.wire.set id) s

/-- WIRE_CMD_GET: one exchange of the byte that opens a get frame (43_chain.md R203). -/
def execWireCmdGet (id : RegId) (s : State) : Outcome := exchange (s.cfg.wire.get id) s

end Sys2Proof.Machine
end

