-- ==== Sys2Proof/Machine/Dispatch.lean ====
section
/-! DEFINITION. One arm per constructor of Instr. -/

namespace Sys2Proof.Machine

def exec (i : Instr) (s : State) : Host.Outcome State Fault Refusal :=
  match i with
  | .lookup reg => Sys2Proof.Machine.execLookup reg s
  | .convert reg phys => Sys2Proof.Machine.execConvert reg phys s
  | .invert reg val => Sys2Proof.Machine.execInvert reg val s
  | .encode w v => Sys2Proof.Machine.execEncode w v s
  | .decode w bytes => Sys2Proof.Machine.execDecode w bytes s
  | .setParam pos reg phys => Sys2Proof.Machine.execSetParam pos reg phys s
  | .setRaw pos reg val => Sys2Proof.Machine.execSetRaw pos reg val s
  | .getParam pos reg => Sys2Proof.Machine.execGetParam pos reg s
  | .xferFrame pos len bytes => Sys2Proof.Machine.execXferFrame pos len bytes s
  | .setSubfield pos reg fld val => Sys2Proof.Machine.execSetSubfield pos reg fld val s
  | .getSubfield pos reg fld => Sys2Proof.Machine.execGetSubfield pos reg fld s
  | .busy pos => Sys2Proof.Machine.execBusy pos s
  | .wireNop => Sys2Proof.Machine.execWireNop s
  | .wireCmdSet id => Sys2Proof.Machine.execWireCmdSet id s
  | .wireCmdGet id => Sys2Proof.Machine.execWireCmdGet id s

end Sys2Proof.Machine
end

