-- ==== Sys2Proof/Machine/Control.lean ====
section
/-! DEFINITION. The control of the block: what one step does in each value of the transaction state machine (10_state.md R22,
00_scope.md R12), and how a word of the opcode table is placed so that the next step runs it. -/

namespace Sys2Proof.Machine

/-- ADDRESSING (43_chain.md R202): the latched request is decoded and runs, or is an IllegalOperation (30_encoding.md R83, R84). -/
def addressingStep (s : State) : Outcome :=
  match decodeFields s.req with
  | .ok i => exec i s
  | .error _ => .next (s.raise .illegalOperation)

/-- SHIFTING (43_chain.md R205): the current slot's byte is exchanged, by name where it is a wire code, as a data byte where it is
none. -/
def shiftingStep (s : State) : Outcome :=
  match decodeWire s.cfg.wire s.slotByte with
  | .ok i => exec i s
  | .error _ => exchange s.slotByte s

/-- One step of the block with its inputs fixed (10_state.md R22). -/
def fsmStep (s : State) : Outcome :=
  match s.fsm with
  | .idle => .next s.idleStep
  | .addressing => addressingStep s
  | .shifting => shiftingStep s
  | .complete => .next s.completeStep

/-- One step: an ill-formed configuration has no meaning (10_state.md R40), a read of a response register that has no value faults
(R37), an asserted `rst` holds the block in reset (70_reset_and_hazards.md R340), and otherwise the state machine moves; the
next step has the next inputs (DEDUCED, log entries 9, 11 and 13). -/
def blockStep (s : State) : Outcome :=
  if s.cfg.wellFormed then
    match s.badRead with
    | some r => .fault (.unspecifiedResponse r)
    | none => if s.inp.rst then .next s.blockReset.nextInputs else advance (fsmStep s)
  else .refused .illFormedConfiguration

/-- The inputs with `rst` deasserted and no response register read: what a step needs to move the state machine. -/
def State.unhindered (s : State) : State := { s with inp := { s.inp with rst := false, rspRead := [] } }

/-- A request placed as if requester 0's had just been accepted (43_chain.md R201): the next step is its ADDRESSING step. -/
def State.placeRequest (req phys : Word64) (s : State) : State :=
  { s.unhindered.accept 0 ⟨true, req, phys⟩ with csAsserted := false, rspValid := false }

/-- A wire byte placed as the one byte of an XFER_FRAME (30_encoding.md R94 `cmd`) to the position whose slot comes first: the next
step exchanges it. -/
def State.placeWireByte (b : Byte) (s : State) : State :=
  let target := BitVec.ofNat 8 (s.cfg.slotpos 0)
  { s.placeRequest (requestWord 0x9 0 0 1 target (b ++ 0#24)) 0 with
    frame := State.overlay s.frame [b], flen := 1, csAsserted := true, fsm := .shifting }

/-- Either kind of word placed. -/
def State.place : Encoded → State → State
  | .request req phys => State.placeRequest req phys
  | .wireByte b => State.placeWireByte b

end Sys2Proof.Machine
end

