-- ==== Sys2Proof/Machine/Step.lean ====
section
/-! DEFINITION. One step of the machine, and a word of the opcode table placed where the next step runs it. -/

namespace Sys2Proof.Machine

/-- One step of the block (00_scope.md R12). -/
def step (s : State) : Host.Outcome State Fault Refusal := blockStep s

/-- The state with the word `w` of `nbits` bits placed so that the very next step runs it (log entry 8). -/
def State.withFetchWord (s : State) (nbits w : Nat) : State := State.place (tableWords nbits w) s

end Sys2Proof.Machine
end

