-- ==== Sys2Proof/Safety.lean ====
section
/-! DEFINITION. What claims are stated in: a state the step can move, the invariant of the engine, the checks of an operation in the
order of 60_exceptions.md R301, and the exchanges a whole transaction shows on the bus. -/

/-- Inputs under which a transaction goes on: no reset, no read of a response register, and a successful transfer. -/
def Sys2Proof.Inputs.CarriesOn (x : Sys2Proof.Inputs) : Prop := x.rst = false ∧ x.rspRead = [] ∧ x.bus.ok = true

namespace Sys2Proof.Machine

/-- The step can move the state machine: the configuration is well-formed (10_state.md R40), `rst` is not asserted, and no response
register without a value is read (R37). -/
structure State.Ready (s : State) : Prop where
  wellFormed : s.cfg.wellFormed = true
  running    : s.inp.rst = false
  readsHold  : s.badRead = none

/-- The frame length of the transaction that the latched request runs, when it is an operation that needs the bus and passes its
checks (43_chain.md R202, R203, R204; 44_busy.md R263; 45_subfield.md R282, R283). -/
def State.transactionLength (s : State) : Option Nat :=
  match decodeFields s.req with
  | .ok (.setParam pos reg phys) => (setParamOperands s.cfg pos reg phys).toOption.map fun er => 1 + nb er.1.width
  | .ok (.setRaw pos reg val) => (setRawOperands s.cfg pos reg val).toOption.map fun er => 1 + nb er.1.width
  | .ok (.getParam pos reg) => (getParamOperands s.cfg pos reg).toOption.map fun e => 1 + nb e.width
  | .ok (.xferFrame pos len bytes) => (xferOperands s.cfg pos len bytes).toOption.map List.length
  | .ok (.setSubfield pos reg fld _) => (setSubfieldOperands s.cfg pos reg fld).toOption.map fun ef => 1 + nb ef.1.width
  | .ok (.getSubfield pos reg fld) => (getSubfieldOperands s.cfg pos reg fld).toOption.map fun ef => 1 + nb ef.1.width
  | .ok (.busy pos) =>
    if s.cfg.n ≤ pos.toNat ∨ s.cfg.hasBusyLine pos.toNat then none
    else (checkRegister s.cfg s.cfg.statusReg).toOption.map fun e => 1 + nb e.width
  | .ok (.lookup _) | .ok (.convert _ _) | .ok (.invert _ _) | .ok (.encode _ _) | .ok (.decode _ _)
  | .ok .wireNop | .ok (.wireCmdSet _) | .ok (.wireCmdGet _) | .error _ => none

/-- The engine's invariant: a legal configuration, an owner exactly while a request is held (10_state.md R39), chip-select asserted
exactly while a transaction is in flight (R27), a response exactly in COMPLETE (R28), counters in their ranges (R26), a transaction
in flight only for a request that passed every check (43_chain.md R213), and a status code that exists (60_exceptions.md R300). -/
structure State.Inv (s : State) : Prop where
  configLegal  : s.cfg.wellFormed = true
  ownerInRange : ∀ q, s.owner = some q → q < s.cfg.q
  ownerHeld    : s.owner = none ↔ s.fsm = .idle
  csInFlight   : s.csAsserted = true ↔ s.fsm = .shifting
  rspHeld      : s.rspValid = true ↔ s.fsm = .complete
  atRest       : s.fsm = .idle ∨ s.fsm = .addressing → s.j = 0 ∧ s.t = 0 ∧ s.phase = 0
  inFlight     : s.fsm = .shifting → s.t < s.cfg.n ∧ s.j < s.flen ∧ s.transactionLength = some s.flen
  twoPhases    : s.phase = 1 → s.req.op = 0xA#4
  statusExists : s.fsm = .complete → s.rspStatus.toNat ≤ 9

/-- `t` is `s` with a successful response: nothing but response registers and the move to COMPLETE differs (10_state.md R28,
43_chain.md R209). -/
def State.OnlyResponds (s t : State) : Prop :=
  t = State.respondOk { s with
    rspInt := t.rspInt, rspPhys := t.rspPhys, rspUnlimited := t.rspUnlimited, rspBytes := t.rspBytes, rspLen := t.rspLen,
    rspBool := t.rspBool, rspWidth := t.rspWidth, rspAccess := t.rspAccess }

/-- The register an operation names in its request (30_encoding.md R82); BUSY names none (60_exceptions.md R301). -/
def namedRegister : Instr → Option RegId
  | .lookup reg | .convert reg _ | .invert reg _ | .setParam _ reg _ | .setRaw _ reg _ | .getParam _ reg
  | .setSubfield _ reg _ _ | .getSubfield _ reg _ => some reg
  | .encode _ _ | .decode _ _ | .xferFrame _ _ _ | .busy _ | .wireNop | .wireCmdSet _ | .wireCmdGet _ => none

/-- The sub-field an operation names in its request (30_encoding.md R82). -/
def namedField : Instr → Option (RegId × FieldId)
  | .setSubfield _ reg fld _ | .getSubfield _ reg fld => some (reg, fld)
  | .lookup _ | .convert _ _ | .invert _ _ | .setParam _ _ _ | .setRaw _ _ _ | .getParam _ _
  | .encode _ _ | .decode _ _ | .xferFrame _ _ _ | .busy _ | .wireNop | .wireCmdSet _ | .wireCmdGet _ => none

/-- The chain position an operation names in its request (30_encoding.md R82). -/
def namedPosition : Instr → Option Pos
  | .setParam pos _ _ | .setRaw pos _ _ | .getParam pos _ | .xferFrame pos _ _ | .setSubfield pos _ _ _
  | .getSubfield pos _ _ | .busy pos => some pos
  | .lookup _ | .convert _ _ | .invert _ _ | .encode _ _ | .decode _ _ | .wireNop | .wireCmdSet _ | .wireCmdGet _ => none

/-- A set operation (40_registry.md R113). -/
def isSet : Instr → Bool
  | .setParam _ _ _ | .setRaw _ _ _ | .setSubfield _ _ _ _ => true
  | .lookup _ | .convert _ _ | .invert _ _ | .getParam _ _ | .encode _ _ | .decode _ _ | .xferFrame _ _ _
  | .getSubfield _ _ _ | .busy _ | .wireNop | .wireCmdSet _ | .wireCmdGet _ => false

/-- The physical operand `phys` has no register integer in an entry of width `w` and descriptor `d` (30_encoding.md R81,
41_conversion.md R135): `DEN` is 0, or the descriptor is IDENTITY and the rational is not an integer of `[0, 2^w)`. -/
def physOutOfRange (e : Entry) (phys : Phys) : Bool :=
  decide (phys.den.toNat = 0)
    || (decide (e.conv = .identity)
      && !(decide (phys.num.toInt % phys.den.toNat = 0) && decide (0 ≤ phys.num.toInt / phys.den.toNat)
        && decide (phys.num.toInt / phys.den.toNat ≤ 2 ^ e.width - 1)))

/-- The check of the given kind fails for this operation, each by itself (60_exceptions.md R300, column "cause", for the operations
of column "raised by"). A check that needs a register's entry cannot fail where there is none. -/
def checkFails (c : Config) (i : Instr) : ErrCode → Bool
  | .illegalOperation => false
  | .busTransferFailed => false
  | .unknownRegister => match namedRegister i with
    | some reg => (c.lookup reg).isNone
    | none => false
  | .unknownField => match namedField i with
    | some rf => (c.subfield rf.1 rf.2).isNone
    | none => false
  | .invalidWidth => match i with
    | .encode w _ | .decode w _ => !(decide (1 ≤ w.toNat) && decide (w.toNat ≤ 22))
    | _ => match (namedRegister i).bind c.lookup with
      | some e => !(decide (1 ≤ e.width) && decide (e.width ≤ 22))
          || match (namedField i).bind fun rf => c.subfield rf.1 rf.2 with
            | some f => decide (e.width < f.off + f.fw)
            | none => false
      | none => false
  | .invalidFrameLength => match i with
    | .xferFrame _ len _ => !(decide (1 ≤ len.toNat) && decide (len.toNat ≤ 4))
    | _ => false
  | .invalidPosition => match namedPosition i with
    | some pos => decide (c.n ≤ pos.toNat)
    | none => false
  | .readOnlyRegister => isSet i && match (namedRegister i).bind c.lookup with
    | some e => decide (e.access = .ro)
    | none => false
  | .valueOutOfRange => match (namedRegister i).bind c.lookup with
    | none => false
    | some e => match i with
      | .convert _ phys | .setParam _ _ phys => physOutOfRange e phys
      | .invert _ val => decide (val.toInt < 0) || decide (2 ^ e.width - 1 < val.toInt)
      | _ => false

/-- The order in which failing checks are reported (60_exceptions.md R301), after IllegalOperation, which the decoder reports. -/
def checkOrder : List ErrCode :=
  [.unknownRegister, .unknownField, .invalidWidth, .invalidFrameLength, .invalidPosition, .readOnlyRegister, .valueOutOfRange]

/-- The fields a request operation reads (30_encoding.md R82), by its code: REG, FLD, WL, POS, VAL, PHYS. -/
structure FieldsRead where
  reg  : Bool
  fld  : Bool
  wl   : Bool
  pos  : Bool
  val  : Bool
  phys : Bool
  deriving DecidableEq, Repr

/-- The column "fields read" of 30_encoding.md R82. -/
def fieldsRead (op : BitVec 4) : FieldsRead :=
  match op with
  | 0x1#4 => ⟨true, false, false, false, false, false⟩
  | 0x2#4 => ⟨true, false, false, false, false, true⟩
  | 0x3#4 => ⟨true, false, false, false, true, false⟩
  | 0x4#4 => ⟨false, false, true, false, true, false⟩
  | 0x5#4 => ⟨false, false, true, false, true, false⟩
  | 0x6#4 => ⟨true, false, false, true, false, true⟩
  | 0x7#4 => ⟨true, false, false, true, true, false⟩
  | 0x8#4 => ⟨true, false, false, true, false, false⟩
  | 0x9#4 => ⟨false, false, true, true, true, false⟩
  | 0xA#4 => ⟨true, true, false, true, true, false⟩
  | 0xB#4 => ⟨true, true, false, true, false, false⟩
  | 0xC#4 => ⟨false, false, false, true, false, false⟩
  | _ => ⟨false, false, false, false, false, false⟩

/-- `rsp_bytes` and `rsp_len`, which are written together (10_state.md R28). -/
def holdsBytes : RspReg → Bool
  | .bytes _ | .len => true
  | .status | .int | .phys | .unlimited | .bool | .width | .access => false

/-- The response registers an operation writes when it succeeds (10_state.md R28), INVERT's `rsp_phys` where the result has a number
and `rsp_bytes` up to `rsp_len`. -/
def responseWrites (c : Config) (i : Instr) (r : RspReg) : Bool :=
  r == .status || match i with
    | .lookup _ => r == .width || r == .access
    | .convert _ _ | .decode _ _ | .setSubfield _ _ _ _ | .getSubfield _ _ _ => r == .int
    | .invert _ _ => r == .phys || r == .unlimited
    | .encode _ _ | .xferFrame _ _ _ => holdsBytes r
    | .setParam _ _ _ | .setRaw _ _ _ | .getParam _ _ => r == .int || holdsBytes r
    | .busy pos => r == .bool || (r == .int && !c.hasBusyLine pos.toNat)
    | .wireNop | .wireCmdSet _ | .wireCmdGet _ => false

/-- This exchange succeeds and is the transaction's last (43_chain.md R205). -/
def State.LastExchange (s : State) : Prop := s.inp.bus.ok = true ∧ s.cfg.n ≤ s.t + 1 ∧ s.flen ≤ s.j + 1

/-- The state in which `finish()` runs after the last exchange, which sent `b` (43_chain.md R205): the echo is captured, the exchange
and the release of chip-select are on the bus, and the wire index is 0. -/
def State.afterLast (b : Byte) (s : State) : State :=
  { s with
    echo := (s.capture b).echo
    t := 0
    csAsserted := false
    wire := s.wire ++ [.xfer b (some s.inp.bus.rx), .csDeassert] }

/-- `k` steps, stopping at the first fault or refusal. -/
def run : Nat → State → Outcome
  | 0, s => .next s
  | k + 1, s =>
    match step s with
    | .next u => run k u
    | .fault r => .fault r
    | .refused r => .refused r

/-- The inputs of the next steps, this one's first. -/
def State.coming (s : State) : List Inputs := s.inp :: s.script

/-- The byte that a slot of a transaction carries (43_chain.md R211): the frame's byte in the target's slot, the no-operation byte
in every other. -/
def State.slotCarries (s : State) (cycle index : Nat) : Byte :=
  if s.cfg.slotpos index = s.req.pos.toNat then s.frame.getD cycle 0 else s.cfg.wire.nop

/-- The events of one byte-cycle, given what its exchanges receive. -/
def State.cycleEvents (s : State) (rx : Nat → Byte) (cycle : Nat) : List BusEvent :=
  (List.range s.cfg.n).map fun index => .xfer (s.slotCarries cycle index) (some (rx (cycle * s.cfg.n + index)))

/-- The chip-select events between a byte-cycle and the next (43_chain.md R208). -/
def State.gapEvents (s : State) : List BusEvent :=
  if s.cfg.csReleasePerCycle then [.csDeassert, .csAssert] else []

/-- The events of a whole transaction after its `CS(asserted)` (43_chain.md R205, R208): the byte-cycles in order, the gaps between
them, and `CS(deasserted)`. -/
def State.transactionEvents (s : State) (rx : Nat → Byte) : List BusEvent :=
  ((List.range s.flen).flatMap fun cycle => (if cycle = 0 then [] else s.gapEvents) ++ s.cycleEvents rx cycle) ++ [.csDeassert]

/-- The bytes sent in a sequence of bus events. -/
def sentBytes (es : List BusEvent) : List Byte :=
  es.filterMap fun e => match e with
    | .xfer b _ => some b
    | .csAssert | .csDeassert => none

end Sys2Proof.Machine
end

