-- ==== Sys2Proof/Certificates/Slice0/Obligations.lean ====
section
/-! DEFINITION. The statements for the provers. An error is entered by `State.raise` (ErrorEntryIsPrecise says all it does, with the
code of each kind); a step gives the state the next inputs by `State.nextInputs`, which changes `inp`, `script` and `tick` alone
(log entry 2). A whole next state says of every element that the rule does not write that it keeps what it held: for response
registers and buffer bytes to which 10_state.md R24, R25 and R37 give no value then, that is the model's choice, log entry 15, and
the statement's docstring says so. -/

open Sys2Proof Sys2Proof.Machine

/-! ### Encodings -/

/-- Decoding an encoded instruction gives it back, for every instruction that has a word of its own, with every operand at every
value, and for every choice of the wire bytes (30_encoding.md R80 to R82, R86). Under a choice that gives one byte to a set and a
get command, that the byte has the set command's meaning is the model's choice (DESIGN CHOICE, log entry 12). -/
def Obligations.DecodeEncodeRoundTrip : Prop :=
  ∀ (wc : WireCodes) (i : Instr), i.wellFormedFor wc = true → decodeEncoded wc (encode wc i) = .ok i

/-- 30_encoding.md R84: a request with `REQ[31:26] ≠ 0` is an IllegalOperation before any other check, and a field that the
operation does not read, `PHYS` among them, is ignored whatever its value. -/
def Obligations.UnreadFieldsAreIgnored : Prop :=
  (∀ s : State, s.Ready → s.fsm = .addressing → s.req.rsv ≠ 0#6 →
    step s = .next ({ s with rspStatus := 0x8, rspValid := true, fsm := .complete } : State).nextInputs) ∧
  ∀ r r' : Request, r.op = r'.op → r.rsv = r'.rsv →
    ((fieldsRead r.op).reg = true → r.reg = r'.reg) → ((fieldsRead r.op).fld = true → r.fld = r'.fld) →
    ((fieldsRead r.op).wl = true → r.wl = r'.wl) → ((fieldsRead r.op).pos = true → r.pos = r'.pos) →
    ((fieldsRead r.op).val = true → r.val = r'.val) → ((fieldsRead r.op).phys = true → r.phys = r'.phys) →
    decodeFields r = decodeFields r'

/-- 30_encoding.md R83: the operation codes 0x0, 0xD, 0xE and 0xF are an IllegalOperation, and the bus is not touched. -/
def Obligations.ReservedCodesAreIllegal : Prop :=
  ∀ s : State, s.Ready → s.fsm = .addressing → s.req.op ∈ [0x0#4, 0xD#4, 0xE#4, 0xF#4] →
    step s = .next ({ s with rspStatus := 0x8, rspValid := true, fsm := .complete } : State).nextInputs

/-- Words written out from 30_encoding.md R80 and R86 (95_test_vectors.md) decode to the instructions they stand for. -/
def Obligations.WrittenOutWordsDecode : Prop :=
  decodeRequest 0x0000000000000071 0 = .ok (.lookup 0x07) ∧
  decodeRequest 0x0000000000000072 0x00000001000003E8 = .ok (.convert 0x07 ⟨1000, 1⟩) ∧
  decodeRequest 0x0000004300014004 0 = .ok (.encode 10 67) ∧
  decodeRequest 0x0000015500040077 0 = .ok (.setRaw 1 0x07 0x155) ∧
  decodeRequest 0xB800000000082009 0 = .ok (.xferFrame 2 1 0xB8000000) ∧
  decodeRequest 0x0000000D0000016A 0 = .ok (.setSubfield 0 0x16 0 0x0D) ∧
  decodeWire WireCodes.table 0x00 = .ok .wireNop ∧
  decodeWire WireCodes.table 0x07 = .ok (.wireCmdSet 0x07) ∧
  decodeWire WireCodes.table 0x39 = .ok (.wireCmdGet 0x19)

/-! ### The step and the instruction it runs -/

/-- In ADDRESSING a step is exec of the instruction that the latched request decodes to, and then the next inputs come. -/
def Obligations.StepRunsDecodedRequest : Prop :=
  ∀ (s : State) (i : Instr), s.Ready → s.fsm = .addressing → decodeFields s.req = .ok i → step s = advance (exec i s)

/-- In SHIFTING a step is exec of the wire instruction that the current slot's byte decodes to, and an exchange of that byte where
it decodes to none; then the next inputs come. That an exchange sends the byte is 43_chain.md R205; that a byte of 30_encoding.md
R86 is exchanged as the execution of a wire instruction is the model's choice (DESIGN CHOICE, log entry 12). -/
def Obligations.StepExchangesSlotByte : Prop :=
  ∀ s : State, s.Ready → s.fsm = .shifting →
    (∀ i, decodeWire s.cfg.wire s.slotByte = .ok i → step s = advance (exec i s)) ∧
    (decodeWire s.cfg.wire s.slotByte = .error .dataByte → step s = advance (exchange s.slotByte s))

/-- A word of the opcode table placed for the next step is the instruction that step runs. -/
def Obligations.PlacedWordRunsNext : Prop :=
  ∀ (s : State) (nbits w : Nat) (i : Instr), s.cfg.wellFormed = true → s.cfg.wire = WireCodes.table →
    decodeTableWord nbits w = some i → step (s.withFetchWord nbits w) = advance (exec i (s.withFetchWord nbits w))

/-! ### The registry, the converter and the codec -/

/-- 40_registry.md R114, LOOKUP. That the response registers it does not write keep what they held is the model's choice (DESIGN
CHOICE, log entry 15; 10_state.md R37 leaves them unspecified). -/
def Obligations.LookupAnswersWidthAndAccess : Prop :=
  (∀ r : Request, decodeFields r = .ok (.lookup r.reg) ↔ r.rsv = 0#6 ∧ r.op = 0x1#4) ∧
  ∀ (reg : RegId) (s : State),
    (s.cfg.lookup reg = none → exec (.lookup reg) s = .next (s.raise .unknownRegister)) ∧
    ∀ e, s.cfg.lookup reg = some e →
      (¬(1 ≤ e.width ∧ e.width ≤ 22) → exec (.lookup reg) s = .next (s.raise .invalidWidth)) ∧
      (1 ≤ e.width ∧ e.width ≤ 22 → exec (.lookup reg) s = .next { s with
        rspWidth := BitVec.ofNat 5 e.width, rspAccess := if e.access = .ro then 1 else 0,
        rspStatus := 0, rspValid := true, fsm := .complete })

/-- 41_conversion.md R136, CONVERT: the checks in order, the case split on the descriptor, and the response. That the response
registers it does not write keep what they held is the model's choice (DESIGN CHOICE, log entry 15). -/
def Obligations.ConvertAnswersRegisterInteger : Prop :=
  (∀ r : Request, decodeFields r = .ok (.convert r.reg r.phys) ↔ r.rsv = 0#6 ∧ r.op = 0x2#4) ∧
  ∀ (reg : RegId) (phys : Phys) (s : State),
    (s.cfg.lookup reg = none → exec (.convert reg phys) s = .next (s.raise .unknownRegister)) ∧
    ∀ e, s.cfg.lookup reg = some e →
      (¬(1 ≤ e.width ∧ e.width ≤ 22) → exec (.convert reg phys) s = .next (s.raise .invalidWidth)) ∧
      (1 ≤ e.width ∧ e.width ≤ 22 → phys.den = 0#32 → exec (.convert reg phys) s = .next (s.raise .valueOutOfRange)) ∧
      (1 ≤ e.width ∧ e.width ≤ 22 → phys.den ≠ 0#32 → ∀ v : Rat, v = (phys.num.toInt : Rat) / (phys.den.toNat : Rat) →
        (e.conv = .identity → ∀ r : Int, v = r → 0 ≤ r → r ≤ 2 ^ e.width - 1 → exec (.convert reg phys) s = .next { s with
          rspInt := BitVec.ofInt 32 r, rspStatus := 0, rspValid := true, fsm := .complete }) ∧
        (e.conv = .identity → (¬∃ r : Int, v = r ∧ 0 ≤ r ∧ r ≤ 2 ^ e.width - 1) →
          exec (.convert reg phys) s = .next (s.raise .valueOutOfRange)) ∧
        (∀ K maxV sent, e.conv = .motion K maxV sent → exec (.convert reg phys) s = .next { s with
          rspInt := BitVec.ofInt 32 (convMotion K maxV sent v), rspStatus := 0, rspValid := true, fsm := .complete }) ∧
        (∀ K B, e.conv = .linear K B → exec (.convert reg phys) s = .next { s with
          rspInt := BitVec.ofInt 32 (convLinear K B v e.width), rspStatus := 0, rspValid := true, fsm := .complete }))

/-- 41_conversion.md R137, INVERT: the checks in order, the case split on the descriptor, and the response. That the response
registers it does not write, `rsp_phys` among them for a sentinel, keep what they held is the model's choice (DESIGN CHOICE, log
entry 15). -/
def Obligations.InvertAnswersPhysicalValue : Prop :=
  (∀ r : Request, decodeFields r = .ok (.invert r.reg r.val) ↔ r.rsv = 0#6 ∧ r.op = 0x3#4) ∧
  ∀ (reg : RegId) (val : Word32) (s : State),
    (s.cfg.lookup reg = none → exec (.invert reg val) s = .next (s.raise .unknownRegister)) ∧
    ∀ e, s.cfg.lookup reg = some e →
      (¬(1 ≤ e.width ∧ e.width ≤ 22) → exec (.invert reg val) s = .next (s.raise .invalidWidth)) ∧
      (1 ≤ e.width ∧ e.width ≤ 22 → val.toInt < 0 ∨ 2 ^ e.width - 1 < val.toInt →
        exec (.invert reg val) s = .next (s.raise .valueOutOfRange)) ∧
      (1 ≤ e.width ∧ e.width ≤ 22 → 0 ≤ val.toInt → val.toInt ≤ 2 ^ e.width - 1 →
        (e.conv = .identity → exec (.invert reg val) s = .next { s with
          rspPhys := val.toInt, rspUnlimited := false, rspStatus := 0, rspValid := true, fsm := .complete }) ∧
        (∀ K maxV p, e.conv = .motion K maxV (some p) → val.toInt = p.value → exec (.invert reg val) s = .next { s with
          rspUnlimited := true, rspStatus := 0, rspValid := true, fsm := .complete }) ∧
        (∀ K maxV sent, e.conv = .motion K maxV sent → (∀ p, sent = some p → val.toInt ≠ p.value) →
          exec (.invert reg val) s = .next { s with
            rspPhys := val.toInt / K, rspUnlimited := false, rspStatus := 0, rspValid := true, fsm := .complete }) ∧
        (∀ K B, e.conv = .linear K B → exec (.invert reg val) s = .next { s with
          rspPhys := (val.toInt - B) / K, rspUnlimited := false, rspStatus := 0, rspValid := true, fsm := .complete }))

/-- 00_scope.md R9: round_ha is the sign times the floor of the absolute value plus one half. -/
def Obligations.RoundHalfAwayFromZero : Prop :=
  ∀ x : Rat, roundHa x = (SignType.sign x : Int) * ⌊|x| + 1 / 2⌋

/-- 41_conversion.md R132 and R133: the sentinel first, with a strict comparison, then scale, round and clamp. -/
def Obligations.MotionConversionClampsAfterSentinel : Prop :=
  ∀ (K : Rat) (maxV : Nat) (v : Rat),
    convMotion K maxV none v = max 0 (min (roundHa (v * K)) maxV) ∧
    ∀ p : Sentinel,
      (p.threshold < v → convMotion K maxV (some p) v = p.value) ∧
      (v ≤ p.threshold → convMotion K maxV (some p) v = max 0 (min (roundHa (v * K)) maxV))

/-- 41_conversion.md R138: without a sentinel MOTION is non-decreasing, and LINEAR always is. -/
def Obligations.ConversionsAreMonotone : Prop :=
  ∀ (K B : Rat) (maxV w : Nat) (v v' : Rat), 0 < K → v ≤ v' →
    convMotion K maxV none v ≤ convMotion K maxV none v' ∧ convLinear K B v w ≤ convLinear K B v' w

/-- 41_conversion.md R139: the integer round trip through the inverse, for each kind of descriptor. -/
def Obligations.IntegersSurviveInversion : Prop :=
  (∀ (K : Rat) (maxV : Nat) (sent : Option Sentinel) (r : Int), 0 < K → 0 ≤ r → r ≤ maxV →
    (∀ p, sent = some p → (r : Rat) / K ≤ p.threshold ∨ r = p.value) → convMotion K maxV sent ((r : Rat) / K) = r) ∧
  (∀ (K B : Rat) (w : Nat) (r : Int), 0 < K → 0 ≤ r → r ≤ 2 ^ w - 1 → convLinear K B (((r : Rat) - B) / K) w = r) ∧
  ∀ (w : Nat) (r : Int), 0 ≤ r → r ≤ 2 ^ w - 1 → convIdentity r w = .ok r

/-- 41_conversion.md R140: saturation at the top of the range, and a converted value always fits its register. -/
def Obligations.ConversionsSaturate : Prop :=
  (∀ (K : Rat) (maxV : Nat) (v : Rat), 0 < K → (maxV : Rat) + 1 / 2 ≤ v * K → convMotion K maxV none v = maxV) ∧
  (∀ (K B : Rat) (w : Nat) (v : Rat), 0 < K → (2 : Rat) ^ w - 1 / 2 ≤ v * K + B → convLinear K B v w = 2 ^ w - 1) ∧
  ∀ (e : Entry) (v : Rat) (r : Int), e.wellFormed = true → convert e v = .ok r → 0 ≤ r ∧ r ≤ 2 ^ e.width - 1

/-- 42_codec.md R171, ENCODE. That the bytes and the response registers it does not write keep what they held is the model's choice
(DESIGN CHOICE, log entry 15). -/
def Obligations.EncodeAnswersBytes : Prop :=
  (∀ r : Request, decodeFields r = .ok (.encode r.wl r.val) ↔ r.rsv = 0#6 ∧ r.op = 0x4#4) ∧
  ∀ (w : BitVec 5) (v : Word32) (s : State),
    (¬(1 ≤ w.toNat ∧ w.toNat ≤ 22) → exec (.encode w v) s = .next (s.raise .invalidWidth)) ∧
    (1 ≤ w.toNat ∧ w.toNat ≤ 22 → ∃ bytes : Vector Byte 4,
      (∀ m : Fin 4, m.val < nb w.toNat → (encodeBytes v.toInt w.toNat)[m.val]? = some bytes[m]) ∧
      (∀ m : Fin 4, nb w.toNat ≤ m.val → bytes[m] = s.rspBytes[m]) ∧
      exec (.encode w v) s = .next { s with
        rspBytes := bytes, rspLen := BitVec.ofNat 3 (nb w.toNat), rspStatus := 0, rspValid := true, fsm := .complete })

/-- 42_codec.md R173, DECODE: byte m of the operand is `VAL[31-8m : 24-8m]` (30_encoding.md R85). That the response registers it
does not write keep what they held is the model's choice (DESIGN CHOICE, log entry 15). -/
def Obligations.DecodeAnswersInteger : Prop :=
  (∀ r : Request, decodeFields r = .ok (.decode r.wl r.val) ↔ r.rsv = 0#6 ∧ r.op = 0x5#4) ∧
  ∀ (w : BitVec 5) (bytes : Word32) (s : State),
    (¬(1 ≤ w.toNat ∧ w.toNat ≤ 22) → exec (.decode w bytes) s = .next (s.raise .invalidWidth)) ∧
    (1 ≤ w.toNat ∧ w.toNat ≤ 22 → exec (.decode w bytes) s = .next { s with
      rspInt := BitVec.ofNat 32
        (decodeBytes ((List.range (nb w.toNat)).map fun m => bytes.extractLsb' (24 - 8 * m) 8) w.toNat),
      rspStatus := 0, rspValid := true, fsm := .complete })

/-- 42_codec.md R170: byte m of an encoding is bits `8*(n-1-m)+7 : 8*(n-1-m)` of `v mod 2^w`, and the first byte's high bits are 0. -/
def Obligations.EncodingIsBigEndian : Prop :=
  ∀ (v : Int) (w : Nat), 1 ≤ w → w ≤ 22 → ∀ (m : Nat) (b : Byte), (encodeBytes v w)[m]? = some b →
    (b.toNat : Int) = v % 2 ^ w / 2 ^ (8 * (nb w - 1 - m)) % 256 ∧ (m = 0 → b.toNat < 2 ^ (w - 8 * (nb w - 1)))

/-- 42_codec.md R175: decoding an encoding gives the value modulo `2^w`. -/
def Obligations.CodecRoundTrip : Prop :=
  ∀ (v : Int) (w : Nat), 1 ≤ w → w ≤ 22 → (decodeBytes (encodeBytes v w) w : Int) = v % 2 ^ w

/-- 42_codec.md R176: encoding a decoding gives the bytes back with the first byte masked to the width, hence the very bytes where
the first byte's high bits are 0. -/
def Obligations.CodecReverseRoundTrip : Prop :=
  ∀ (w : Nat) (b : Byte) (rest : List Byte), 1 ≤ w → w ≤ 22 → (b :: rest).length = nb w →
    encodeBytes (decodeBytes (b :: rest) w) w = (b &&& BitVec.ofNat 8 (2 ^ (w - 8 * (nb w - 1)) - 1)) :: rest ∧
      (b.toNat < 2 ^ (w - 8 * (nb w - 1)) → encodeBytes (decodeBytes (b :: rest) w) w = b :: rest)

/-- 42_codec.md R177: an encoding is 1 byte for widths 1 to 8, 2 for 9 to 16, 3 for 17 to 22. -/
def Obligations.EncodingLengths : Prop :=
  ∀ (v : Int) (w : Nat),
    (1 ≤ w → w ≤ 8 → (encodeBytes v w).length = 1) ∧ (9 ≤ w → w ≤ 16 → (encodeBytes v w).length = 2) ∧
      (17 ≤ w → w ≤ 22 → (encodeBytes v w).length = 3)

/-! ### The operations that use the chain -/

/-- 43_chain.md R220, SET_PARAM: its first failing check, the transaction it starts, and its response after the last exchange. That
buffer bytes beyond the length written and the response registers not written keep what they held is the model's choice (DESIGN
CHOICE, log entry 15), and that `rsp_int` is read from the frame is DEDUCED (log entry 7). -/
def Obligations.SetParamSendsConvertedValue : Prop :=
  (∀ r : Request, decodeFields r = .ok (.setParam r.pos r.reg r.phys) ↔ r.rsv = 0#6 ∧ r.op = 0x6#4) ∧
  ∀ (pos : Pos) (reg : RegId) (phys : Phys) (s : State),
    (∀ k, checkOrder.find? (checkFails s.cfg (.setParam pos reg phys)) = some k →
      exec (.setParam pos reg phys) s = .next (s.raise k)) ∧
    ∀ (e : Entry) (r : Int), s.cfg.lookup reg = some e → 1 ≤ e.width ∧ e.width ≤ 22 → pos.toNat < s.cfg.n → e.access = .rw →
      phys.den ≠ 0#32 → convert e ((phys.num.toInt : Rat) / (phys.den.toNat : Rat)) = .ok r →
      exec (.setParam pos reg phys) s = .next { s with
        frame := State.overlay s.frame (s.cfg.wire.set reg :: encodeBytes r e.width), flen := 1 + nb e.width, j := 0, t := 0,
        csAsserted := true, fsm := .shifting, wire := s.wire ++ [.csAssert] } ∧
      ∀ b, decodeFields s.req = .ok (.setParam pos reg phys) → s.LastExchange → 0 ≤ r → r < 2 ^ e.width →
        s.frame.toList.take s.flen = s.cfg.wire.set reg :: encodeBytes r e.width →
        exchange b s = .next { s.afterLast b with
          rspInt := BitVec.ofInt 32 r, rspBytes := State.overlay s.rspBytes ((s.capture b).echo.toList.take s.flen),
          rspLen := BitVec.ofNat 3 s.flen, rspStatus := 0, rspValid := true, fsm := .complete }

/-- 43_chain.md R221, SET_RAW: the value is truncated to the register's width, never rejected. That buffer bytes beyond the length
written and the response registers not written keep what they held is the model's choice (DESIGN CHOICE, log entry 15), and that
`rsp_int` is read from the frame is DEDUCED (log entry 7). -/
def Obligations.SetRawSendsTruncatedValue : Prop :=
  (∀ r : Request, decodeFields r = .ok (.setRaw r.pos r.reg r.val) ↔ r.rsv = 0#6 ∧ r.op = 0x7#4) ∧
  ∀ (pos : Pos) (reg : RegId) (val : Word32) (s : State),
    (∀ k, checkOrder.find? (checkFails s.cfg (.setRaw pos reg val)) = some k →
      exec (.setRaw pos reg val) s = .next (s.raise k)) ∧
    ∀ e : Entry, s.cfg.lookup reg = some e → 1 ≤ e.width ∧ e.width ≤ 22 → pos.toNat < s.cfg.n → e.access = .rw →
      exec (.setRaw pos reg val) s = .next { s with
        frame := State.overlay s.frame (s.cfg.wire.set reg :: encodeBytes (val.toInt % 2 ^ e.width) e.width),
        flen := 1 + nb e.width, j := 0, t := 0, csAsserted := true, fsm := .shifting, wire := s.wire ++ [.csAssert] } ∧
      ∀ b, decodeFields s.req = .ok (.setRaw pos reg val) → s.LastExchange →
        s.frame.toList.take s.flen = s.cfg.wire.set reg :: encodeBytes (val.toInt % 2 ^ e.width) e.width →
        exchange b s = .next { s.afterLast b with
          rspInt := BitVec.ofInt 32 (val.toInt % 2 ^ e.width),
          rspBytes := State.overlay s.rspBytes ((s.capture b).echo.toList.take s.flen),
          rspLen := BitVec.ofNat 3 s.flen, rspStatus := 0, rspValid := true, fsm := .complete }

/-- 43_chain.md R222, GET_PARAM: the get frame, and the value decoded from the echo after the command byte's. That buffer bytes
beyond the length written and the response registers not written keep what they held is the model's choice (DESIGN CHOICE, log entry
15). -/
def Obligations.GetParamReadsEchoedValue : Prop :=
  (∀ r : Request, decodeFields r = .ok (.getParam r.pos r.reg) ↔ r.rsv = 0#6 ∧ r.op = 0x8#4) ∧
  ∀ (pos : Pos) (reg : RegId) (s : State),
    (∀ k, checkOrder.find? (checkFails s.cfg (.getParam pos reg)) = some k → exec (.getParam pos reg) s = .next (s.raise k)) ∧
    ∀ e : Entry, s.cfg.lookup reg = some e → 1 ≤ e.width ∧ e.width ≤ 22 → pos.toNat < s.cfg.n →
      exec (.getParam pos reg) s = .next { s with
        frame := State.overlay s.frame (s.cfg.wire.get reg :: List.replicate (nb e.width) s.cfg.wire.nop),
        flen := 1 + nb e.width, j := 0, t := 0, csAsserted := true, fsm := .shifting, wire := s.wire ++ [.csAssert] } ∧
      ∀ b, decodeFields s.req = .ok (.getParam pos reg) → s.LastExchange →
        exchange b s = .next { s.afterLast b with
          rspInt := BitVec.ofNat 32 (decodeBytes (((s.capture b).echo.toList.drop 1).take (nb e.width)) e.width),
          rspBytes := State.overlay s.rspBytes ((s.capture b).echo.toList.take s.flen),
          rspLen := BitVec.ofNat 3 s.flen, rspStatus := 0, rspValid := true, fsm := .complete }

/-- 43_chain.md R224, XFER_FRAME: the caller's bytes are sent as given, and the echo is the response. Byte m sent is `VAL[31-8m :
24-8m]` (30_encoding.md R85). That buffer bytes beyond the length written and the response registers not written keep what they held
is the model's choice (DESIGN CHOICE, log entry 15). -/
def Obligations.XferFrameSendsCallerBytes : Prop :=
  (∀ r : Request, decodeFields r = .ok (.xferFrame r.pos r.wl r.val) ↔ r.rsv = 0#6 ∧ r.op = 0x9#4) ∧
  ∀ (pos : Pos) (len : BitVec 5) (bytes : Word32) (s : State),
    (∀ k, checkOrder.find? (checkFails s.cfg (.xferFrame pos len bytes)) = some k →
      exec (.xferFrame pos len bytes) s = .next (s.raise k)) ∧
    (1 ≤ len.toNat → len.toNat ≤ 4 → pos.toNat < s.cfg.n →
      exec (.xferFrame pos len bytes) s = .next { s with
        frame := State.overlay s.frame ((List.range len.toNat).map fun m => bytes.extractLsb' (24 - 8 * m) 8), flen := len.toNat, j := 0, t := 0,
        csAsserted := true, fsm := .shifting, wire := s.wire ++ [.csAssert] }) ∧
    ∀ b, decodeFields s.req = .ok (.xferFrame pos len bytes) → s.LastExchange →
      exchange b s = .next { s.afterLast b with
        rspBytes := State.overlay s.rspBytes ((s.capture b).echo.toList.take s.flen),
        rspLen := BitVec.ofNat 3 s.flen, rspStatus := 0, rspValid := true, fsm := .complete }

/-- 45_subfield.md R282, GET_SUBFIELD: the get frame of the register, and the field of the value read. That buffer bytes beyond the
length written and the response registers not written keep what they held is the model's choice (DESIGN CHOICE, log entry 15). -/
def Obligations.GetSubfieldReadsField : Prop :=
  (∀ r : Request, decodeFields r = .ok (.getSubfield r.pos r.reg r.fld) ↔ r.rsv = 0#6 ∧ r.op = 0xB#4) ∧
  ∀ (pos : Pos) (reg : RegId) (fld : FieldId) (s : State),
    (∀ k, checkOrder.find? (checkFails s.cfg (.getSubfield pos reg fld)) = some k →
      exec (.getSubfield pos reg fld) s = .next (s.raise k)) ∧
    ∀ (e : Entry) (f : SubField), s.cfg.lookup reg = some e → s.cfg.subfield reg fld = some f →
      1 ≤ e.width ∧ e.width ≤ 22 → f.off + f.fw ≤ e.width → pos.toNat < s.cfg.n →
      exec (.getSubfield pos reg fld) s = .next { s with
        frame := State.overlay s.frame (s.cfg.wire.get reg :: List.replicate (nb e.width) s.cfg.wire.nop),
        flen := 1 + nb e.width, j := 0, t := 0, csAsserted := true, fsm := .shifting, wire := s.wire ++ [.csAssert] } ∧
      ∀ b, decodeFields s.req = .ok (.getSubfield pos reg fld) → s.LastExchange →
        exchange b s = .next { s.afterLast b with
          rspInt := BitVec.ofNat 32
            (decodeBytes (((s.capture b).echo.toList.drop 1).take (nb e.width)) e.width / 2 ^ f.off % 2 ^ f.fw),
          rspStatus := 0, rspValid := true, fsm := .complete }

/-- 45_subfield.md R283, SET_SUBFIELD: the read transaction, then the write transaction of the value with the field replaced, then
the response. That buffer bytes beyond the length written and the response registers not written keep what they held is the model's
choice (DESIGN CHOICE, log entry 15), and that `rsp_int` is read from the frame is DEDUCED (log entry 7). -/
def Obligations.SetSubfieldReadsThenWrites : Prop :=
  (∀ r : Request, decodeFields r = .ok (.setSubfield r.pos r.reg r.fld r.val) ↔ r.rsv = 0#6 ∧ r.op = 0xA#4) ∧
  ∀ (pos : Pos) (reg : RegId) (fld : FieldId) (val : Word32) (s : State),
    (∀ k, checkOrder.find? (checkFails s.cfg (.setSubfield pos reg fld val)) = some k →
      exec (.setSubfield pos reg fld val) s = .next (s.raise k)) ∧
    ∀ (e : Entry) (f : SubField), s.cfg.lookup reg = some e → s.cfg.subfield reg fld = some f →
      1 ≤ e.width ∧ e.width ≤ 22 → f.off + f.fw ≤ e.width → pos.toNat < s.cfg.n → e.access = .rw →
      exec (.setSubfield pos reg fld val) s = .next { s with
        frame := State.overlay s.frame (s.cfg.wire.get reg :: List.replicate (nb e.width) s.cfg.wire.nop),
        flen := 1 + nb e.width, j := 0, t := 0, csAsserted := true, fsm := .shifting, wire := s.wire ++ [.csAssert] } ∧
      ∀ b, decodeFields s.req = .ok (.setSubfield pos reg fld val) → s.LastExchange →
        (s.phase = 0 → ∀ old new : Word32,
          old = BitVec.ofNat 32 (decodeBytes (((s.capture b).echo.toList.drop 1).take (nb e.width)) e.width) →
          new = ((old &&& ~~~BitVec.ofNat 32 ((2 ^ f.fw - 1) * 2 ^ f.off)) |||
            BitVec.ofInt 32 (val.toInt % 2 ^ f.fw * 2 ^ f.off)) →
          exchange b s = .next { s.afterLast b with
            phase := 1, frame := State.overlay s.frame (s.cfg.wire.set reg :: encodeBytes new.toNat e.width),
            flen := 1 + nb e.width, j := 0, t := 0, csAsserted := true, fsm := .shifting,
            wire := s.wire ++ [.xfer b (some s.inp.bus.rx), .csDeassert, .csAssert] }) ∧
        (s.phase = 1 → ∀ new : Nat, new < 2 ^ e.width →
          s.frame.toList.take s.flen = s.cfg.wire.set reg :: encodeBytes new e.width →
          exchange b s = .next { s.afterLast b with
            rspInt := BitVec.ofNat 32 new, rspStatus := 0, rspValid := true, fsm := .complete })

/-- 44_busy.md R263, BUSY: the position first, then the line's level, or the status register's bit 1 after a get transaction. That
buffer bytes beyond the length written and the response registers not written keep what they held is the model's choice (DESIGN
CHOICE, log entry 15). -/
def Obligations.BusyAnswersFromLineOrStatus : Prop :=
  (∀ r : Request, decodeFields r = .ok (.busy r.pos) ↔ r.rsv = 0#6 ∧ r.op = 0xC#4) ∧
  ∀ (pos : Pos) (s : State),
    (s.cfg.n ≤ pos.toNat → exec (.busy pos) s = .next (s.raise .invalidPosition)) ∧
    (pos.toNat < s.cfg.n → s.cfg.hasBusyLine pos.toNat = true → exec (.busy pos) s = .next { s with
      rspBool := decide (s.inp.busyLine.getLsbD pos.toNat = false), rspStatus := 0, rspValid := true, fsm := .complete }) ∧
    (pos.toNat < s.cfg.n → s.cfg.hasBusyLine pos.toNat = false →
      (s.cfg.lookup s.cfg.statusReg = none → exec (.busy pos) s = .next (s.raise .unknownRegister)) ∧
      ∀ e, s.cfg.lookup s.cfg.statusReg = some e →
        (¬(1 ≤ e.width ∧ e.width ≤ 22) → exec (.busy pos) s = .next (s.raise .invalidWidth)) ∧
        (1 ≤ e.width ∧ e.width ≤ 22 →
          exec (.busy pos) s = .next { s with
            frame := State.overlay s.frame
              (s.cfg.wire.get s.cfg.statusReg :: List.replicate (nb e.width) s.cfg.wire.nop),
            flen := 1 + nb e.width, j := 0, t := 0, csAsserted := true, fsm := .shifting, wire := s.wire ++ [.csAssert] } ∧
          ∀ b x, decodeFields s.req = .ok (.busy pos) → s.LastExchange →
            x = decodeBytes (((s.capture b).echo.toList.drop 1).take (nb e.width)) e.width →
            exchange b s = .next { s.afterLast b with
              rspInt := BitVec.ofNat 32 x,
              rspBool := if s.cfg.statusBusyActiveLow then decide (x / 2 % 2 = 0) else decide (x / 2 % 2 = 1),
              rspStatus := 0, rspValid := true, fsm := .complete }))

/-! ### One exchange -/

/-- 43_chain.md R205, the SHIFT step of each wire byte: a failed transfer, the next slot, the next byte-cycle with R208's
chip-select, and, at the end of a transaction that its request runs, a next state. That one such exchange is the meaning of a wire
byte is the model's choice (DESIGN CHOICE, log entry 12). -/
def Obligations.WireBytesExchangeOneSlot : Prop :=
  ∀ (i : Instr) (b : Byte) (s : State), encode s.cfg.wire i = .wireByte b →
    (s.inp.bus.ok = false → exec i s = .next { s with
      csAsserted := false, chainSuspect := true, rspStatus := 0x5, rspValid := true, fsm := .complete,
      wire := s.wire ++ [.xfer b none, .csDeassert] }) ∧
    (s.inp.bus.ok = true → s.t + 1 < s.cfg.n → exec i s = .next { s with
      echo := if s.cfg.slotpos s.t = s.req.pos.toNat then s.echo.setIfInBounds s.j s.inp.bus.rx else s.echo,
      t := s.t + 1, wire := s.wire ++ [.xfer b (some s.inp.bus.rx)] }) ∧
    (s.inp.bus.ok = true → s.cfg.n ≤ s.t + 1 → s.j + 1 < s.flen → s.csAsserted = true → exec i s = .next { s with
      echo := if s.cfg.slotpos s.t = s.req.pos.toNat then s.echo.setIfInBounds s.j s.inp.bus.rx else s.echo,
      t := 0, j := s.j + 1,
      wire := s.wire ++ .xfer b (some s.inp.bus.rx) ::
        (if s.cfg.csReleasePerCycle = true then [.csDeassert, .csAssert] else []) }) ∧
    (s.LastExchange → s.transactionLength = some s.flen → ∃ u, exec i s = .next u ∧
      (u.fsm = .complete ∨ u.fsm = .shifting ∧ s.req.op = 0xA#4 ∧ u.phase = 1))

/-- The frame of a wire byte: whatever an exchange does, it changes no response register but on entering COMPLETE, and never the
configuration, the owner, the latched request or the inputs (43_chain.md R205, 10_state.md R28, R39). That an exchange is the
meaning of a wire byte is the model's choice (DESIGN CHOICE, log entry 12). -/
def Obligations.ExchangeFrame : Prop :=
  ∀ (i : Instr) (s u : State), i.isWire = true → exec i s = .next u →
    u.cfg = s.cfg ∧ u.owner = s.owner ∧ u.req = s.req ∧ u.inp = s.inp ∧ u.script = s.script ∧ u.tick = s.tick ∧
    (u.fsm = s.fsm → s.fsm = .shifting → u.rspValid = s.rspValid ∧ u.rspStatus = s.rspStatus ∧ u.rspInt = s.rspInt ∧
      u.rspPhys = s.rspPhys ∧ u.rspUnlimited = s.rspUnlimited ∧ u.rspBytes = s.rspBytes ∧ u.rspLen = s.rspLen ∧
      u.rspBool = s.rspBool ∧ u.rspWidth = s.rspWidth ∧ u.rspAccess = s.rspAccess ∧ u.chainSuspect = s.chainSuspect)

/-- 43_chain.md R211, chain isolation in one step: the exchange sends the frame's byte in the target's slot and the no-operation
byte in every other, and it is the only exchange of the step. 43_chain.md R206: wire index t carries position t in ASCENDING order
and position N - 1 - t in DESCENDING order. -/
def Obligations.NonTargetSlotsCarryNop : Prop :=
  (∀ (c : Config) (t : Nat), (c.slotOrder = .ascending → c.slotpos t = t) ∧
    (c.slotOrder = .descending → c.slotpos t = c.n - 1 - t)) ∧
  ∀ s : State, s.Inv → s.Ready → s.fsm = .shifting →
    ∃ u rest, step s = .next u ∧ sentBytes rest = [] ∧
      u.wire = s.wire ++ .xfer (if s.cfg.slotpos s.t = s.req.pos.toNat then s.frame.getD s.j 0 else s.cfg.wire.nop)
        (if s.inp.bus.ok then some s.inp.bus.rx else none) :: rest

/-- 43_chain.md R207: the target's byte is captured at its byte-cycle, and what any other slot receives is discarded. -/
def Obligations.EchoIsTargetSlotByte : Prop :=
  ∀ s u : State, s.Ready → s.fsm = .shifting → s.inp.bus.ok = true → step s = .next u →
    (s.cfg.slotpos s.t = s.req.pos.toNat → u.echo = s.echo.setIfInBounds s.j s.inp.bus.rx) ∧
    (s.cfg.slotpos s.t ≠ s.req.pos.toNat → u.echo = s.echo)

/-- 43_chain.md R210: a failed transfer ends the transaction at once. -/
def Obligations.BusFailureEndsTransaction : Prop :=
  ∀ s : State, s.Ready → s.fsm = .shifting → s.inp.bus.ok = false →
    step s = .next ({ s with
      csAsserted := false, chainSuspect := true, rspStatus := 0x5, rspValid := true, fsm := .complete,
      wire := s.wire ++ [.xfer s.slotByte none, .csDeassert] } : State).nextInputs

/-- 43_chain.md R214: in SHIFTING no request, take, arbitration or busy-line input changes the course of the transaction, and only a
failed transfer or block reset ends it before its last exchange. -/
def Obligations.NoCancellationWhileShifting : Prop :=
  ∀ s : State, s.fsm = .shifting → s.inp.rst = false →
    (∀ (reqs : List ReqPort) (take : List Nat) (grant : Nat) (lines : BitVec 256),
      step { s with inp := { s.inp with reqs := reqs, take := take, grant := grant, busyLine := lines } } = step s) ∧
    ∀ u, step s = .next u → s.inp.bus.ok = true → ¬s.LastExchange → u.fsm = .shifting

/-! ### Errors -/

/-- 60_exceptions.md R300 and R302: the code that each kind of error writes, with `rsp_valid` and the move to COMPLETE; an
ADDRESSING step that answers an error writes `rsp_status` and `rsp_valid`, moves to COMPLETE, and changes nothing else of the block;
the code is 1 to 4 or 6 to 9.  -/
def Obligations.ErrorEntryIsPrecise : Prop :=
  (∀ s : State,
    s.raise .unknownRegister = { s with rspStatus := 0x1, rspValid := true, fsm := .complete } ∧
    s.raise .invalidWidth = { s with rspStatus := 0x2, rspValid := true, fsm := .complete } ∧
    s.raise .invalidPosition = { s with rspStatus := 0x3, rspValid := true, fsm := .complete } ∧
    s.raise .valueOutOfRange = { s with rspStatus := 0x4, rspValid := true, fsm := .complete } ∧
    s.raise .busTransferFailed = { s with rspStatus := 0x5, rspValid := true, fsm := .complete } ∧
    s.raise .readOnlyRegister = { s with rspStatus := 0x6, rspValid := true, fsm := .complete } ∧
    s.raise .unknownField = { s with rspStatus := 0x7, rspValid := true, fsm := .complete } ∧
    s.raise .illegalOperation = { s with rspStatus := 0x8, rspValid := true, fsm := .complete } ∧
    s.raise .invalidFrameLength = { s with rspStatus := 0x9, rspValid := true, fsm := .complete }) ∧
  ∀ s u : State, s.Ready → s.fsm = .addressing → step s = .next u → u.fsm = .complete → u.rspStatus ≠ 0#4 →
    ∃ code ∈ [0x1#4, 0x2#4, 0x3#4, 0x4#4, 0x6#4, 0x7#4, 0x8#4, 0x9#4],
      u = ({ s with rspStatus := code, rspValid := true, fsm := .complete } : State).nextInputs

/-- 60_exceptions.md R301: IllegalOperation comes first; the first failing check is the one reported, and an operation none of whose
checks fails enters no error; BUSY checks its position first, and STATUS_REG only on the status path. -/
def Obligations.FirstFailingCheckIsReported : Prop :=
  (∀ (s : State) (why : DecodeError), s.Ready → s.fsm = .addressing → decodeFields s.req = .error why →
    step s = .next (s.raise .illegalOperation).nextInputs) ∧
  ∀ (i : Instr) (s : State), i.isWire = false →
    ((∀ pos, i ≠ .busy pos) →
      (∀ k, checkOrder.find? (checkFails s.cfg i) = some k → exec i s = .next (s.raise k)) ∧
      (checkOrder.find? (checkFails s.cfg i) = none →
        ∃ u, exec i s = .next u ∧ (u.fsm = .shifting ∨ u.fsm = .complete ∧ u.rspStatus = 0#4))) ∧
    ∀ pos, i = .busy pos →
      (s.cfg.n ≤ pos.toNat → exec i s = .next (s.raise .invalidPosition)) ∧
      (pos.toNat < s.cfg.n → s.cfg.hasBusyLine pos.toNat = false →
        (s.cfg.lookup s.cfg.statusReg = none → exec i s = .next (s.raise .unknownRegister)) ∧
        ∀ e, s.cfg.lookup s.cfg.statusReg = some e → ¬(1 ≤ e.width ∧ e.width ≤ 22) → exec i s = .next (s.raise .invalidWidth))

/-- 40_registry.md R113: at a position of the chain, a set operation to a known read-only register fails with ReadOnlyRegister and
GET_PARAM of it starts its transaction; of a read-write register both start theirs. -/
def Obligations.ReadOnlyRegistersAreNotSet : Prop :=
  ∀ (s : State) (pos : Pos) (reg : RegId) (e : Entry), s.cfg.wellFormed = true → s.cfg.lookup reg = some e → pos.toNat < s.cfg.n →
    (e.access = .ro →
      (∀ phys, exec (.setParam pos reg phys) s = .next (s.raise .readOnlyRegister)) ∧
      (∀ val, exec (.setRaw pos reg val) s = .next (s.raise .readOnlyRegister)) ∧
      ∀ fld f val, s.cfg.subfield reg fld = some f →
        exec (.setSubfield pos reg fld val) s = .next (s.raise .readOnlyRegister)) ∧
    (e.access = .rw → ∀ val, ∃ u, exec (.setRaw pos reg val) s = .next u ∧ u.fsm = .shifting) ∧
    ∃ u, exec (.getParam pos reg) s = .next u ∧ u.fsm = .shifting

/-- 43_chain.md R213: a step in ADDRESSING performs no exchange, and asserts chip-select only for a transaction that every check of
its request allows. -/
def Obligations.ChecksPrecedeTheBus : Prop :=
  ∀ s u : State, s.Inv → s.Ready → s.fsm = .addressing → step s = .next u →
    (u.wire = s.wire ∧ u.csAsserted = false ∧ u.fsm = .complete) ∨
      (u.wire = s.wire ++ [.csAssert] ∧ u.csAsserted = true ∧ u.fsm = .shifting ∧ s.transactionLength = some u.flen)

/-- 10_state.md R37: a read of a response register that has no value is a fault: while `rsp_valid` is 0, after an error (but for
`rsp_status`), and of a register or byte that the operation does not write (R28); a read of one it writes is none, and a read of a
held response's `rsp_status` never is, whatever its code and its request (60_exceptions.md R303). -/
def Obligations.UnspecifiedReadsFault : Prop :=
  ∀ (s : State) (r : RspReg) (rest : List RspReg), s.cfg.wellFormed = true → s.inp.rspRead = r :: rest →
    (s.rspValid = false → step s = .fault (.unspecifiedResponse r)) ∧
    (r ≠ .status → s.rspStatus ≠ 0#4 → step s = .fault (.unspecifiedResponse r)) ∧
    (∀ i, decodeFields s.req = .ok i → responseWrites s.cfg i r = false → step s = .fault (.unspecifiedResponse r)) ∧
    (r = .phys → s.rspUnlimited = true → step s = .fault (.unspecifiedResponse r)) ∧
    (∀ m, r = .bytes m → s.rspLen.toNat ≤ m.val → step s = .fault (.unspecifiedResponse r)) ∧
    (∀ i, decodeFields s.req = .ok i → responseWrites s.cfg i r = true → s.rspValid = true → s.rspStatus = 0#4 →
      (r = .phys → s.rspUnlimited = false) → (∀ m, r = .bytes m → m.val < s.rspLen.toNat) → rest = [] → s.inp.rst = false →
      ∀ r', step s ≠ .fault (.unspecifiedResponse r')) ∧
    (r = .status → s.rspValid = true → rest = [] → s.inp.rst = false → ∀ r', step s ≠ .fault (.unspecifiedResponse r'))

/-- 10_state.md R40: a configuration is well-formed exactly when its seven conditions hold (and `Q ≥ 1`, 00_scope.md R5), and every
step of one that is not is refused. `Q ≥ 1` stands beside the seven by log entry 10, and the refusal by every step is log entry 9
(both DEDUCED). -/
def Obligations.IllFormedConfigurationIsRefused : Prop :=
  (∀ s : State, s.cfg.wellFormed = false → step s = .refused .illFormedConfiguration) ∧
  ∀ c : Config, c.wellFormed = true ↔
    (1 ≤ c.n ∧ c.n ≤ 256) ∧
    c.registry.Pairwise (fun e e' => e.id ≠ e'.id) ∧
    (∀ e ∈ c.registry, 1 ≤ e.width ∧ e.width ≤ 22) ∧
    (∀ e ∈ c.registry, (∀ K maxV sent, e.conv = .motion K maxV sent →
        0 < K ∧ maxV ≤ 2 ^ e.width - 1 ∧ ∀ p, sent = some p → p.value ≤ 2 ^ e.width - 1) ∧
      ∀ K B, e.conv = .linear K B → 0 < K) ∧
    (∀ f ∈ c.subfields, ∃ e, c.lookup f.reg = some e ∧ 1 ≤ f.fw ∧ f.off + f.fw ≤ e.width) ∧
    ((∃ k, k < c.n ∧ c.hasBusyLine k = false) → ∃ e, c.lookup c.statusReg = some e ∧ 1 < e.width) ∧
    (∀ e ∈ c.registry, c.wire.set e.id ≠ c.wire.nop ∧ c.wire.get e.id ≠ c.wire.nop) ∧
    1 ≤ c.q

/-! ### Requests, responses and reset -/

/-- 43_chain.md R201: in IDLE one waiting requester is accepted, any of them for some wish of the arbiter, and with none waiting the
block takes no step. That the arbiter chooses by a wish among the inputs is the model's choice (DESIGN CHOICE, log entry 2); that a
block which takes no step (60_exceptions.md R312) stays as it is while the inputs advance is DEDUCED (log entry 11). -/
def Obligations.AcceptGrantsAWaitingRequester : Prop :=
  ∀ s : State, s.Ready → s.fsm = .idle →
    (∀ q p, q < s.cfg.q → s.inp.reqs[q]? = some p → p.valid = true →
      ∃ q' p', q' < s.cfg.q ∧ s.inp.reqs[q']? = some p' ∧ p'.valid = true ∧ (s.inp.grant = q → q' = q) ∧
        step s = .next ({ s with
          owner := some q', req := Request.ofWords p'.word p'.phys, phase := 0, j := 0, t := 0,
          fsm := .addressing } : State).nextInputs) ∧
    ((∀ q p, q < s.cfg.q → s.inp.reqs[q]? = some p → p.valid = false) → step s = .next s.nextInputs)

/-- 43_chain.md R216: from ACCEPT to TAKE no other request is accepted: the latched request never changes, and the owner changes
only in the step that takes the response. That the latched request is kept past the TAKE step, where 10_state.md R23 leaves it
unspecified, is the model's choice (DESIGN CHOICE, log entry 15). -/
def Obligations.OneRequestAtATime : Prop :=
  ∀ s u : State, s.inp.rst = false → s.fsm ≠ .idle → step s = .next u →
    u.req = s.req ∧ u.fsm ≠ .idle ∧ u.owner = s.owner ∨
      u.req = s.req ∧ u.fsm = .idle ∧ s.fsm = .complete ∧ u.owner = none ∧ ∃ q, s.owner = some q ∧ q ∈ s.inp.take

/-- 43_chain.md R209 and 70_reset_and_hazards.md R349: the owner's take ends the request, and until it comes the block waits in
COMPLETE and nothing of it changes. That waiting is a step in which only the inputs advance is DEDUCED (log entry 11), and that the
latched request is kept past the TAKE step is the model's choice (DESIGN CHOICE, log entry 15). -/
def Obligations.ResponseIsHeldUntilTaken : Prop :=
  ∀ s : State, s.Ready → s.fsm = .complete →
    (∀ q, s.owner = some q → q ∈ s.inp.take → step s = .next ({ s with
      rspValid := false, owner := none, j := 0, t := 0, phase := 0, fsm := .idle } : State).nextInputs) ∧
    (∀ q, s.owner = some q → q ∉ s.inp.take → step s = .next s.nextInputs)

/-- 10_state.md R28: the response registers change only in the step that enters COMPLETE, or under block reset. -/
def Obligations.ResponseRegistersChangeOnCompletion : Prop :=
  ∀ s u : State, s.inp.rst = false → step s = .next u → ¬(s.fsm ≠ .complete ∧ u.fsm = .complete) →
    u.rspStatus = s.rspStatus ∧ u.rspInt = s.rspInt ∧ u.rspPhys = s.rspPhys ∧ u.rspUnlimited = s.rspUnlimited ∧
    u.rspBytes = s.rspBytes ∧ u.rspLen = s.rspLen ∧ u.rspBool = s.rspBool ∧ u.rspWidth = s.rspWidth ∧
    u.rspAccess = s.rspAccess

/-- 10_state.md R29: `chain_suspect` is set by a failed transfer in SHIFTING and by nothing else, and no operation clears it. -/
def Obligations.ChainSuspectIsSticky : Prop :=
  ∀ s u : State, s.inp.rst = false → step s = .next u →
    (u.chainSuspect = true ↔ s.chainSuspect = true ∨ s.fsm = .shifting ∧ s.inp.bus.ok = false)

/-- 70_reset_and_hazards.md R340 and R341: block reset, whatever the block was doing: the request in flight is abandoned,
chip-select is deasserted, no exchange happens, and the elements that 10_state.md R41 names take their values. That the bus shows
one deassertion exactly when chip-select was asserted is DEDUCED (log entry 18). -/
def Obligations.BlockResetAbandonsEverything : Prop :=
  ∀ s u : State, s.cfg.wellFormed = true → s.inp.rst = true → s.inp.rspRead = [] → step s = .next u →
    u.fsm = .idle ∧ u.owner = none ∧ u.j = 0 ∧ u.t = 0 ∧ u.phase = 0 ∧ u.csAsserted = false ∧ u.rspValid = false ∧
    u.chainSuspect = false ∧ u.cfg = s.cfg ∧
    u.wire = s.wire ++ (if s.csAsserted = true then [.csDeassert] else [])

/-- 70_reset_and_hazards.md R342, and 00_scope.md R5: no step writes the configuration, block reset included. -/
def Obligations.ConfigurationNeverChanges : Prop :=
  ∀ s u : State, step s = .next u → u.cfg = s.cfg

/-- 10_state.md R41: what reset leaves, in the elements the spec gives a value. -/
def Obligations.ResetValues : Prop :=
  State.reset.fsm = .idle ∧ State.reset.owner = none ∧ State.reset.j = 0 ∧ State.reset.t = 0 ∧ State.reset.phase = 0 ∧
  State.reset.csAsserted = false ∧ State.reset.rspValid = false ∧ State.reset.chainSuspect = false ∧
  ∀ r, State.reset.specified r = false

/-! ### Busy and sub-fields -/

/-- 44_busy.md R264: with the active-low status bit the two paths agree exactly when the line's level equals status bit 1. -/
def Obligations.BusyPathsAgree : Prop :=
  ∀ (level : Bool) (x : Nat), busyFromLine level = busyFromStatus true x ↔ level = x.testBit 1

/-- 45_subfield.md R286: the new value keeps every bit outside the field, and the field reads as the argument modulo its width. -/
def Obligations.FieldIsolation : Prop :=
  ∀ (old : Word32) (f : SubField) (v : Int), 1 ≤ f.fw → f.off + f.fw ≤ 22 →
    (∀ k, k < 32 → (k < f.off ∨ f.off + f.fw ≤ k) → (insertField old f v).getLsbD k = old.getLsbD k) ∧
    (extractField (insertField old f v).toNat f : Int) = v % 2 ^ f.fw

/-- 45_subfield.md R284: the step-mode setter replaces the register's low 3 bits by the argument's. -/
def Obligations.StepModeTakesArgument : Prop :=
  ∀ (old m : Word32) (name : String),
    insertField old ⟨0x16, 0, name, 0, 3⟩ m.toInt = (old &&& ~~~0x07#32) ||| (m &&& 0x07#32)

/-! ### The whole machine -/

/-- The engine's invariant holds at reset, with the configuration that the model's reset state carries (log entry 6). -/
def Obligations.ResetSatisfiesInvariant : Prop := State.reset.Inv

/-- Every step keeps the engine's invariant, from any state that has it. -/
def Obligations.StepKeepsInvariant : Prop :=
  ∀ s u : State, s.Inv → step s = .next u → u.Inv

/-- From a state with the invariant the block never stops but for a read that 10_state.md R37 makes a fault. -/
def Obligations.BlockNeverStops : Prop :=
  ∀ s : State, s.Inv → s.badRead = none → ∃ u, step s = .next u

/-- 43_chain.md R211 and R215 over a whole transaction: it performs its N * flen exchanges in the order of 20_memory.md R72, each with
its slot's byte, between one assertion and one release of chip-select, and then the response is held or SET_SUBFIELD's second
transaction starts. -/
def Obligations.TransactionShowsItsExchanges : Prop :=
  ∀ s : State, s.Inv → s.fsm = .shifting → s.j = 0 → s.t = 0 →
    s.cfg.n * s.flen ≤ s.coming.length → (∀ x ∈ s.coming.take (s.cfg.n * s.flen), x.CarriesOn) →
    ∃ u, run (s.cfg.n * s.flen) s = .next u ∧
      ((u.fsm = .complete ∧ u.rspStatus = 0#4 ∧
          u.wire = s.wire ++ s.transactionEvents fun m => (s.coming.getD m s.inp).bus.rx) ∨
        (u.fsm = .shifting ∧ s.req.op = 0xA#4 ∧ s.phase = 0 ∧ u.phase = 1 ∧
          u.wire = s.wire ++ (s.transactionEvents fun m => (s.coming.getD m s.inp).bus.rx) ++ [.csAssert]))

/-- 43_chain.md R212: with one device the bytes sent are exactly the frame. -/
def Obligations.SingleDeviceSendsTheFrame : Prop :=
  ∀ s : State, s.Inv → s.fsm = .shifting → s.j = 0 → s.t = 0 → s.cfg.n = 1 →
    s.flen ≤ s.coming.length → (∀ x ∈ s.coming.take s.flen, x.CarriesOn) →
    ∃ u, run s.flen s = .next u ∧ sentBytes u.wire = sentBytes s.wire ++ s.frame.toList.take s.flen

/-- 43_chain.md R202, R205, R207 and R222 together: from the ADDRESSING step of a GET_PARAM that passes its checks, 1 + N * flen
steps lead to its response, whose value is decoded from what came back in the target's slot of the data byte-cycles. -/
def Obligations.GetParamEndToEnd : Prop :=
  ∀ (s : State) (pos : Pos) (reg : RegId) (e : Entry), s.Inv → s.fsm = .addressing → s.inp.rst = false → s.inp.rspRead = [] →
    decodeFields s.req = .ok (.getParam pos reg) → s.cfg.lookup reg = some e → pos.toNat < s.cfg.n →
    s.cfg.n * (1 + nb e.width) ≤ s.script.length →
    (∀ x ∈ s.script.take (s.cfg.n * (1 + nb e.width)), x.CarriesOn) →
    ∃ u, run (1 + s.cfg.n * (1 + nb e.width)) s = .next u ∧ u.fsm = .complete ∧ u.rspValid = true ∧ u.rspStatus = 0#4 ∧
      u.rspInt = BitVec.ofNat 32 (decodeBytes ((List.range (nb e.width)).map fun m =>
        (s.script.getD ((m + 1) * s.cfg.n + s.cfg.slotpos pos.toNat) s.inp).bus.rx) e.width) ∧
      sentBytes u.wire = sentBytes s.wire ++ (List.range (1 + nb e.width)).flatMap fun cycle =>
        (List.range s.cfg.n).map fun index =>
          if s.cfg.slotpos index = pos.toNat ∧ cycle = 0 then s.cfg.wire.get reg else s.cfg.wire.nop

/-! ### Added by the review -/

/-- 41_conversion.md R134: LINEAR scales, adds the offset, rounds half away from zero and clamps to the register's range, and the
conversion of a LINEAR register raises no error. -/
def Obligations.LinearConversionScalesRoundsClamps : Prop :=
  ∀ (K B v : Rat) (w : Nat), convLinear K B v w = max 0 (min (roundHa (v * K + B)) (2 ^ w - 1)) ∧
    ∀ e : Entry, e.conv = .linear K B → e.width = w → convert e v = .ok (max 0 (min (roundHa (v * K + B)) (2 ^ w - 1)))

/-- 30_encoding.md R90: a set or get frame of a register is as long as its command byte tells a decoder of bus traffic, `1 + nb(w)`,
and the byte tells exactly the lengths of the registered ids whose command byte it is. Where it is the byte of several whose lengths
differ, it alone tells no one length (DEDUCED, log entry 19). -/
def Obligations.CommandByteTellsFrameLength : Prop :=
  (∀ (c : Config) (id : RegId) (e : Entry), c.lookup id = some e →
    (∀ r : Int, (c.wire.set id :: encodeBytes r e.width).length ∈ frameLengths c (c.wire.set id)) ∧
    (c.wire.get id :: List.replicate (nb e.width) c.wire.nop).length ∈ frameLengths c (c.wire.get id)) ∧
  ∀ (c : Config) (b : Byte) (n : Nat),
    (n ∈ frameLengths c b ↔
      ∃ id e, c.lookup id = some e ∧ (c.wire.set id = b ∨ c.wire.get id = b) ∧ n = 1 + (e.width + 7) / 8) ∧
    (frameLengthOf c b = some n ↔ n ∈ frameLengths c b ∧ ∀ m ∈ frameLengths c b, m = n)

/-- 42_codec.md R172: decoding `nb(w)` bytes gives the number they make with the first byte the most significant, modulo `2^w`: the
bits beyond the width are ignored, whatever they are, and the result lies in `[0, 2^w)`. -/
def Obligations.DecodingMasksBeyondWidth : Prop :=
  ∀ (w : Nat) (bs : List Byte), 1 ≤ w → w ≤ 22 → bs.length = nb w →
    decodeBytes bs w = ((List.range (nb w)).map fun m => (bs.getD m 0).toNat * 256 ^ (nb w - 1 - m)).sum % 2 ^ w ∧
    decodeBytes bs w < 2 ^ w
end

