-- ==== Sys2Proof/Laws/Checks.lean ====
section
/-! SUPPORT. What it means that a check, or all of an operation's checks, passed (60_exceptions.md R300, R301), and the lengths of
the frames that are built then (43_chain.md R203, R204, 42_codec.md R177). -/

namespace Sys2Proof.Machine

theorem widthValid_iff (w : Nat) : widthValid w = true ↔ 1 ≤ w ∧ w ≤ 22 := by
  rw [widthValid, Bool.and_eq_true, decide_eq_true_eq, decide_eq_true_eq, wMin, wMax]

theorem nb_le_three {w : Nat} (h : w ≤ 22) : nb w ≤ 3 := by unfold nb; omega

theorem nb_pos {w : Nat} (h : 1 ≤ w) : 1 ≤ nb w := by unfold nb; omega

@[simp] theorem encodeBytes_length (v : Int) (w : Nat) : (encodeBytes v w).length = nb w := by simp [encodeBytes]

theorem decodeBytes_lt (bs : List Byte) (w : Nat) : decodeBytes bs w < 2 ^ w := Nat.mod_lt _ (Nat.two_pow_pos w)

@[simp] theorem setFrame_length (c : Config) (id : RegId) (w : Nat) (r : Int) : (setFrame c id w r).length = 1 + nb w := by
  simp [setFrame, Nat.add_comm]

@[simp] theorem getFrame_length (c : Config) (id : RegId) (w : Nat) : (getFrame c id w).length = 1 + nb w := by
  simp [getFrame, Nat.add_comm]

theorem checkRegister_eq_ok {c : Config} {reg : RegId} {e : Entry} :
    checkRegister c reg = .ok e ↔ c.lookup reg = some e ∧ widthValid e.width = true := by
  unfold checkRegister
  cases h : c.lookup reg with
  | none => simp
  | some e' =>
    by_cases hw : widthValid e'.width
    · simp only [hw, if_true, Except.ok.injEq, Option.some.injEq]
      exact ⟨fun h => ⟨h, h ▸ hw⟩, fun h => h.1⟩
    · simp only [hw, Bool.false_eq_true, if_false, reduceCtorEq, Option.some.injEq, false_iff]
      rintro ⟨rfl, h⟩
      exact hw h

theorem checkField_eq_ok {c : Config} {reg : RegId} {fld : FieldId} {ef : Entry × SubField} :
    checkField c reg fld = .ok ef ↔
      c.lookup reg = some ef.1 ∧ c.subfield reg fld = some ef.2 ∧ widthValid ef.1.width = true
        ∧ ef.2.off + ef.2.fw ≤ ef.1.width := by
  obtain ⟨e, f⟩ := ef
  unfold checkField
  cases h : c.lookup reg with
  | none => simp
  | some e' =>
    cases hf : c.subfield reg fld with
    | none => simp
    | some f' =>
      by_cases hw : widthValid e'.width ∧ f'.off + f'.fw ≤ e'.width
      · simp only [hw.1, hw.2, decide_true, Bool.and_self, if_true, Except.ok.injEq, Option.some.injEq, Prod.mk.injEq]
        exact ⟨fun h => ⟨h.1, h.2, h.1 ▸ hw.1, h.1 ▸ h.2 ▸ hw.2⟩, fun h => ⟨h.1, h.2.1⟩⟩
      · have : (widthValid e'.width && decide (f'.off + f'.fw ≤ e'.width)) = false := by
          simpa [Bool.and_eq_true] using hw
        simp only [this, Bool.false_eq_true, if_false, reduceCtorEq, Option.some.injEq, false_iff]
        rintro ⟨rfl, rfl, h⟩
        exact hw h

theorem checkPosition_eq_ok {c : Config} {pos : Pos} : checkPosition c pos = .ok () ↔ pos.toNat < c.n := by
  unfold checkPosition
  split <;> simp_all

theorem checkWritable_eq_ok {e : Entry} : checkWritable e = .ok () ↔ e.access = .rw := by
  unfold checkWritable
  split <;> simp_all

theorem checkFrameLength_eq_ok {len : BitVec 5} : checkFrameLength len = .ok () ↔ 1 ≤ len.toNat ∧ len.toNat ≤ 4 := by
  unfold checkFrameLength lMax
  split
  · simp only [reduceCtorEq, false_iff]; omega
  · simp only [true_iff]; omega

theorem checkWidth_eq_ok {w : BitVec 5} {n : Nat} : checkWidth w = .ok n ↔ n = w.toNat ∧ widthValid w.toNat = true := by
  unfold checkWidth
  split
  · next h => simp only [Except.ok.injEq, h, and_true]; exact eq_comm
  · next h => simp [h]

theorem bind_eq_ok {α β : Type} {x : Except ErrCode α} {f : α → Except ErrCode β} {b : β} :
    (x >>= f) = .ok b ↔ ∃ a, x = .ok a ∧ f a = .ok b := by
  cases x <;> simp [bind, Except.bind]

theorem setParamOperands_eq_ok {c : Config} {pos : Pos} {reg : RegId} {phys : Phys} {e : Entry} {r : Int} :
    setParamOperands c pos reg phys = .ok (e, r) ↔
      checkRegister c reg = .ok e ∧ pos.toNat < c.n ∧ e.access = .rw
        ∧ ∃ v, physValue phys = .ok v ∧ convert e v = .ok r := by
  simp only [setParamOperands, bind_eq_ok, pure, Except.pure, Except.ok.injEq, Prod.mk.injEq]
  constructor
  · rintro ⟨e', he, _, hp, _, hw, v, hv, r', hr, rfl, rfl⟩
    exact ⟨he, checkPosition_eq_ok.1 hp, checkWritable_eq_ok.1 hw, v, hv, hr⟩
  · rintro ⟨he, hp, hw, v, hv, hr⟩
    exact ⟨e, he, (), checkPosition_eq_ok.2 hp, (), checkWritable_eq_ok.2 hw, v, hv, r, hr, rfl, rfl⟩

theorem setRawOperands_eq_ok {c : Config} {pos : Pos} {reg : RegId} {val : Word32} {e : Entry} {r : Int} :
    setRawOperands c pos reg val = .ok (e, r) ↔
      checkRegister c reg = .ok e ∧ pos.toNat < c.n ∧ e.access = .rw ∧ r = val.toInt % 2 ^ e.width := by
  simp only [setRawOperands, bind_eq_ok, pure, Except.pure, Except.ok.injEq, Prod.mk.injEq]
  constructor
  · rintro ⟨e', he, _, hp, _, hw, rfl, rfl⟩
    exact ⟨he, checkPosition_eq_ok.1 hp, checkWritable_eq_ok.1 hw, rfl⟩
  · rintro ⟨he, hp, hw, rfl⟩
    exact ⟨e, he, (), checkPosition_eq_ok.2 hp, (), checkWritable_eq_ok.2 hw, rfl, rfl⟩

theorem getParamOperands_eq_ok {c : Config} {pos : Pos} {reg : RegId} {e : Entry} :
    getParamOperands c pos reg = .ok e ↔ checkRegister c reg = .ok e ∧ pos.toNat < c.n := by
  simp only [getParamOperands, bind_eq_ok, pure, Except.pure, Except.ok.injEq]
  constructor
  · rintro ⟨e', he, _, hp, rfl⟩
    exact ⟨he, checkPosition_eq_ok.1 hp⟩
  · rintro ⟨he, hp⟩
    exact ⟨e, he, (), checkPosition_eq_ok.2 hp, rfl⟩

theorem xferOperands_eq_ok {c : Config} {pos : Pos} {len : BitVec 5} {bytes : Word32} {bs : List Byte} :
    xferOperands c pos len bytes = .ok bs ↔
      1 ≤ len.toNat ∧ len.toNat ≤ 4 ∧ pos.toNat < c.n ∧ bs = (operandBytes bytes).take len.toNat := by
  simp only [xferOperands, bind_eq_ok, pure, Except.pure, Except.ok.injEq]
  constructor
  · rintro ⟨_, hl, _, hp, rfl⟩
    exact ⟨(checkFrameLength_eq_ok.1 hl).1, (checkFrameLength_eq_ok.1 hl).2, checkPosition_eq_ok.1 hp, rfl⟩
  · rintro ⟨h1, h2, hp, rfl⟩
    exact ⟨(), checkFrameLength_eq_ok.2 ⟨h1, h2⟩, (), checkPosition_eq_ok.2 hp, rfl⟩

theorem getSubfieldOperands_eq_ok {c : Config} {pos : Pos} {reg : RegId} {fld : FieldId} {ef : Entry × SubField} :
    getSubfieldOperands c pos reg fld = .ok ef ↔ checkField c reg fld = .ok ef ∧ pos.toNat < c.n := by
  simp only [getSubfieldOperands, bind_eq_ok, pure, Except.pure, Except.ok.injEq]
  constructor
  · rintro ⟨e', he, _, hp, rfl⟩
    exact ⟨he, checkPosition_eq_ok.1 hp⟩
  · rintro ⟨he, hp⟩
    exact ⟨ef, he, (), checkPosition_eq_ok.2 hp, rfl⟩

theorem setSubfieldOperands_eq_ok {c : Config} {pos : Pos} {reg : RegId} {fld : FieldId} {ef : Entry × SubField} :
    setSubfieldOperands c pos reg fld = .ok ef ↔
      checkField c reg fld = .ok ef ∧ pos.toNat < c.n ∧ ef.1.access = .rw := by
  simp only [setSubfieldOperands, bind_eq_ok, pure, Except.pure, Except.ok.injEq]
  constructor
  · rintro ⟨e', he, _, hp, _, hw, rfl⟩
    exact ⟨he, checkPosition_eq_ok.1 hp, checkWritable_eq_ok.1 hw⟩
  · rintro ⟨he, hp, hw⟩
    exact ⟨ef, he, (), checkPosition_eq_ok.2 hp, (), checkWritable_eq_ok.2 hw, rfl⟩

/-- The operand bytes in use, by their place in `VAL` (30_encoding.md R85). -/
theorem take_operandBytes (v : Word32) {n : Nat} (h : n ≤ 4) :
    (operandBytes v).take n = (List.range n).map fun m => v.extractLsb' (24 - 8 * m) 8 := by
  interval_cases n <;> rfl

theorem xferOperands_length {c : Config} {pos : Pos} {len : BitVec 5} {bytes : Word32} {bs : List Byte}
    (h : xferOperands c pos len bytes = .ok bs) : bs.length = len.toNat := by
  obtain ⟨_, h2, _, rfl⟩ := xferOperands_eq_ok.1 h
  simp only [operandBytes, List.length_take, List.length_cons, List.length_nil]
  omega

end Sys2Proof.Machine
end

