-- ==== Sys2Proof/Machine/Assembler.lean ====
section
/-! DEFINITION. The textual syntax (30_encoding.md R93), from a line's characters to its instruction, and the pseudo-operations'
expansions (R94). Points that R93 leaves open are log entries 17 and 20. The state machine does not depend on this file. -/

namespace Sys2Proof.Assembler

open Machine

/-- One operand token: an integer, a decimal (`m` scaled by `10^-digits`), `NUM/DEN`, or a name. -/
inductive Operand where
  | int (v : Int)
  | decimal (m : Int) (digits : Nat)
  | ratio (num : Int) (den : Nat)
  | name (s : String)
  deriving DecidableEq, Repr

/-- A line: the mnemonic in lower case and its operands (30_encoding.md R93). -/
structure Line where
  mnemonic : String
  operands : List Operand
  deriving DecidableEq, Repr

/-! ### From characters to a line -/

/-- The value of a decimal or hexadecimal digit. -/
def digitValue (c : Char) : Option Nat :=
  let n := c.toNat
  if 48 ≤ n ∧ n ≤ 57 then some (n - 48)
  else if 65 ≤ n ∧ n ≤ 70 then some (n - 55)
  else if 97 ≤ n ∧ n ≤ 102 then some (n - 87)
  else none

/-- Digits of the given base, at least one. -/
def digits (base : Nat) (cs : List Char) : Option Nat :=
  if cs.isEmpty then none
  else cs.foldlM (init := 0) fun n c => match digitValue c with
    | some d => if d < base then some (n * base + d) else none
    | none => none

/-- A number in decimal or `0x` hexadecimal (30_encoding.md R93). -/
def natural : List Char → Option Nat
  | '0' :: 'x' :: cs => digits 16 cs
  | cs => digits 10 cs

/-- A leading minus sign taken off. -/
def signOf : List Char → Int × List Char
  | '-' :: cs => (-1, cs)
  | cs => (1, cs)

/-- The parts between the separators `sep`. -/
def splitAtEach (sep : Char) : List Char → List (List Char)
  | [] => [[]]
  | c :: cs =>
    if c = sep then [] :: splitAtEach sep cs
    else match splitAtEach sep cs with
      | part :: parts => (c :: part) :: parts
      | [] => [[c]]

/-- The characters without the blanks around them. -/
def trimmed (cs : List Char) : List Char :=
  ((cs.dropWhile (· == ' ')).reverse.dropWhile (· == ' ')).reverse

/-- An operand's characters: an integer, a decimal, `NUM/DEN`, or a name. What reads as a number is one, even where a REGISTRY or
SUBFIELDS entry bears it as its name (DESIGN CHOICE, log entry 20). -/
def operandOf (cs : List Char) : Operand :=
  let signed := signOf cs
  match natural signed.2, splitAtEach '/' signed.2, splitAtEach '.' signed.2 with
  | some n, _, _ => .int (signed.1 * n)
  | none, [num, den], _ => match natural num, natural den with
    | some a, some b => .ratio (signed.1 * a) b
    | _, _ => .name (String.ofList cs)
  | none, _, [whole, fraction] => match digits 10 (whole ++ fraction) with
    | some m => .decimal (signed.1 * m) fraction.length
    | none => .name (String.ofList cs)
  | none, _, _ => .name (String.ofList cs)

/-- A line's characters: what stands before a comment, the mnemonic up to the first blank, and the operands between commas. -/
def lineOf (cs : List Char) : Line :=
  let code := trimmed (cs.takeWhile (· != ';'))
  let mnemonic := code.takeWhile (· != ' ')
  let rest := trimmed (code.dropWhile (· != ' '))
  { mnemonic := String.ofList mnemonic
    operands := if rest.isEmpty then [] else (splitAtEach ',' rest).map fun part => operandOf (trimmed part) }

/-! ### From a line to its instruction -/

/-- An unsigned operand of `k` bits. -/
def unsigned (k : Nat) : Operand → Option (BitVec k)
  | .int v => if 0 ≤ v ∧ v < 2 ^ k then some (BitVec.ofInt k v) else none
  | .decimal _ _ | .ratio _ _ | .name _ => none

/-- An integer operand of `VAL`: any 32-bit pattern, written signed or unsigned. -/
def integer : Operand → Option Word32
  | .int v => if -2 ^ 31 ≤ v ∧ v < 2 ^ 32 then some (BitVec.ofInt 32 v) else none
  | .decimal _ _ | .ratio _ _ | .name _ => none

/-- A register: its id or its REGISTRY name. Of several entries of the map that bear the name, the first in the list is meant; the
spec does not say that names differ (DESIGN CHOICE, log entry 20). -/
def register (c : Config) : Operand → Option RegId
  | .name s => (c.registry.find? fun e => e.name == s && c.lookup e.id == some e).map (·.id)
  | o => unsigned 5 o

/-- A sub-field of a register: its id or its SUBFIELDS name. Of several entries of the register in the map that bear the name, the
first in the list is meant, and an entry under a key that an earlier one holds is none of the map's (DESIGN CHOICE, log entry 20). -/
def field (c : Config) (reg : RegId) : Operand → Option FieldId
  | .name s => (c.subfields.find? fun f => f.reg == reg && f.name == s && c.subfield reg f.fid == some f).map (·.fid)
  | o => unsigned 4 o

/-- The pair `NUM/DEN` where both fit their halves of `PHYS` (30_encoding.md R81). -/
def physPair (num : Int) (den : Nat) : Option Phys :=
  if -2 ^ 31 ≤ num ∧ num < 2 ^ 31 ∧ den < 2 ^ 32 then some ⟨BitVec.ofInt 32 num, BitVec.ofNat 32 den⟩ else none

/-- A physical operand: an integer, a decimal as an exact rational, or `NUM/DEN`. -/
def physical : Operand → Option Phys
  | .int v => physPair v 1
  | .decimal m digits => physPair m (10 ^ digits)
  | .ratio num den => physPair num den
  | .name _ => none

/-- Up to four byte operands, the first most significant (30_encoding.md R85); a missing byte is 0. -/
def packBytes (ops : List Operand) : Option Word32 := do
  let bs ← ops.mapM (unsigned 8)
  if bs.length = 0 ∨ 4 < bs.length then none
  else some (bs.getD 0 0 ++ (bs.getD 1 0 ++ (bs.getD 2 0 ++ bs.getD 3 0)))

/-- The instruction of a line whose mnemonic names an operation (30_encoding.md R93). -/
def assembleCore (c : Config) (l : Line) : Option Instr :=
  match l.mnemonic, l.operands with
  | "lookup", [r] => do pure (.lookup (← register c r))
  | "convert", [r, p] => do pure (.convert (← register c r) (← physical p))
  | "invert", [r, v] => do pure (.invert (← register c r) (← integer v))
  | "encode", [w, v] => do pure (.encode (← unsigned 5 w) (← integer v))
  | "decode", w :: bs => do if 3 < bs.length then none else pure (.decode (← unsigned 5 w) (← packBytes bs))
  | "setp", [k, r, p] => do pure (.setParam (← unsigned 8 k) (← register c r) (← physical p))
  | "setr", [k, r, v] => do pure (.setRaw (← unsigned 8 k) (← register c r) (← integer v))
  | "getp", [k, r] => do pure (.getParam (← unsigned 8 k) (← register c r))
  | "xfer", k :: bs => do pure (.xferFrame (← unsigned 8 k) (BitVec.ofNat 5 bs.length) (← packBytes bs))
  | "setf", [k, r, f, v] => do
      let reg ← register c r
      pure (.setSubfield (← unsigned 8 k) reg (← field c reg f) (← integer v))
  | "getf", [k, r, f] => do
      let reg ← register c r
      pure (.getSubfield (← unsigned 8 k) reg (← field c reg f))
  | "busy", [k] => do pure (.busy (← unsigned 8 k))
  | _, _ => none

/-- The pseudo-operations that expand to one line (30_encoding.md R94): `cmd`, `setstepmode`, `nopcycle`. The two names of
`setstepmode` are looked up like any others (log entry 20). -/
def expand (c : Config) (l : Line) : Line :=
  match l.mnemonic, l.operands with
  | "cmd", [k, b] => ⟨"xfer", [k, b]⟩
  | "setstepmode", [k, m] => ⟨"setf", [k, .name "STEP_MODE", .name "STEP_SEL", m]⟩
  | "nopcycle", [k] => ⟨"xfer", [k, .int c.wire.nop.toNat]⟩
  | _, _ => l

/-- The instruction of a line (30_encoding.md R93, R94). -/
def assemble (c : Config) (l : Line) : Option Instr := assembleCore c (expand c l)

/-- The instruction of a line of text (30_encoding.md R93, R94). -/
def assembleText (c : Config) (text : String) : Option Instr := assemble c (lineOf text.toList)

/-- `getphys pos, REG` (30_encoding.md R94): `getp`, then `invert` of the `rsp_int` that it answers. The two requests are not atomic
together. -/
def getPhys (pos : Pos) (reg : RegId) : Instr × (Word32 → Instr) := (.getParam pos reg, .invert reg)

end Sys2Proof.Assembler
end

