-- ==== Sys2Proof/Laws/Encoding.lean ====
section
/-! SUPPORT. The fields of a request word read back (30_encoding.md R80, R81), the ids, the lengths a command byte tells (R90),
the names of the assembler (R93), and what a well-formed configuration gives
(10_state.md R40). -/

namespace Sys2Proof

theorem mem_allRegIds (id : RegId) : id ∈ allRegIds := by
  revert id
  decide

/-- A command byte's frame lengths are those of the registered ids it is the command byte of (30_encoding.md R90). -/
theorem mem_frameLengths {c : Config} {b : Byte} {n : Nat} :
    n ∈ Machine.frameLengths c b ↔
      ∃ id e, c.lookup id = some e ∧ (c.wire.set id = b ∨ c.wire.get id = b) ∧ n = 1 + Machine.nb e.width := by
  simp only [Machine.frameLengths, List.mem_filterMap, List.mem_filter, mem_allRegIds, true_and, Bool.or_eq_true, beq_iff_eq,
    Option.map_eq_some_iff]
  exact ⟨fun ⟨id, hb, e, he, hn⟩ => ⟨id, e, he, hb, hn.symm⟩, fun ⟨id, e, he, hb, hn⟩ => ⟨id, hb, e, he, hn.symm⟩⟩

/-- A name that the assembler takes for a register is that register's (30_encoding.md R93, 40_registry.md R111). -/
theorem register_name {c : Config} {s : String} {id : RegId} (h : Assembler.register c (.name s) = some id) :
    ∃ e, c.lookup id = some e ∧ e.name = s := by
  simp only [Assembler.register, Option.map_eq_some_iff] at h
  obtain ⟨e, he, rfl⟩ := h
  have := List.find?_some he
  simp only [Bool.and_eq_true, beq_iff_eq] at this
  exact ⟨e, this.2, this.1⟩

/-- A name that the assembler takes for a sub-field is that sub-field's (30_encoding.md R93, 45_subfield.md R280). -/
theorem field_name {c : Config} {reg : RegId} {s : String} {fid : FieldId} (h : Assembler.field c reg (.name s) = some fid) :
    ∃ f, c.subfield reg fid = some f ∧ f.name = s := by
  simp only [Assembler.field, Option.map_eq_some_iff] at h
  obtain ⟨f, hf, rfl⟩ := h
  have := List.find?_some hf
  simp only [Bool.and_eq_true, beq_iff_eq] at this
  exact ⟨f, this.2, this.1.2⟩

/-- The low part of a concatenation. -/
theorem extract_low {n m : Nat} (x : BitVec n) (y : BitVec m) : (x ++ y).extractLsb' 0 m = y := by
  ext k hk
  simp [BitVec.getLsbD_append, hk]

/-- A field of the high part of a concatenation. -/
theorem extract_high {n m : Nat} (start len : Nat) (x : BitVec n) (y : BitVec m) :
    (x ++ y).extractLsb' (m + start) len = x.extractLsb' start len := by
  ext k hk
  simp [BitVec.getLsbD_append, Nat.add_assoc]

/-- The fields of a request word are the ones it was made of (30_encoding.md R80). -/
theorem ofWords_requestWord (op : BitVec 4) (reg : RegId) (fld : FieldId) (wl : BitVec 5) (pos : Pos) (val : Word32)
    (phys : Word64) :
    Request.ofWords (requestWord op reg fld wl pos val) phys
      = ⟨op, reg, fld, wl, pos, 0#6, val, ⟨phys.extractLsb' 0 32, phys.extractLsb' 32 32⟩⟩ := by
  have a : (requestWord op reg fld wl pos val).extractLsb' 0 4 = op := extract_low _ _
  have b : (requestWord op reg fld wl pos val).extractLsb' 4 5 = reg :=
    (extract_high 0 5 (val ++ 0#6 ++ pos ++ wl ++ fld ++ reg) op).trans (extract_low _ _)
  have c : (requestWord op reg fld wl pos val).extractLsb' 9 4 = fld :=
    (extract_high 5 4 (val ++ 0#6 ++ pos ++ wl ++ fld ++ reg) op).trans
      ((extract_high 0 4 (val ++ 0#6 ++ pos ++ wl ++ fld) reg).trans (extract_low _ _))
  have d : (requestWord op reg fld wl pos val).extractLsb' 13 5 = wl :=
    (extract_high 9 5 (val ++ 0#6 ++ pos ++ wl ++ fld ++ reg) op).trans
      ((extract_high 4 5 (val ++ 0#6 ++ pos ++ wl ++ fld) reg).trans
        ((extract_high 0 5 (val ++ 0#6 ++ pos ++ wl) fld).trans (extract_low _ _)))
  have e : (requestWord op reg fld wl pos val).extractLsb' 18 8 = pos :=
    (extract_high 14 8 (val ++ 0#6 ++ pos ++ wl ++ fld ++ reg) op).trans
      ((extract_high 9 8 (val ++ 0#6 ++ pos ++ wl ++ fld) reg).trans
        ((extract_high 5 8 (val ++ 0#6 ++ pos ++ wl) fld).trans
          ((extract_high 0 8 (val ++ 0#6 ++ pos) wl).trans (extract_low _ _))))
  have f : (requestWord op reg fld wl pos val).extractLsb' 26 6 = 0#6 :=
    (extract_high 22 6 (val ++ 0#6 ++ pos ++ wl ++ fld ++ reg) op).trans
      ((extract_high 17 6 (val ++ 0#6 ++ pos ++ wl ++ fld) reg).trans
        ((extract_high 13 6 (val ++ 0#6 ++ pos ++ wl) fld).trans
          ((extract_high 8 6 (val ++ 0#6 ++ pos) wl).trans
            ((extract_high 0 6 (val ++ 0#6) pos).trans (extract_low _ _)))))
  have g : (requestWord op reg fld wl pos val).extractLsb' 32 32 = val :=
    (extract_high 28 32 (val ++ 0#6 ++ pos ++ wl ++ fld ++ reg) op).trans
      ((extract_high 23 32 (val ++ 0#6 ++ pos ++ wl ++ fld) reg).trans
        ((extract_high 19 32 (val ++ 0#6 ++ pos ++ wl) fld).trans
          ((extract_high 14 32 (val ++ 0#6 ++ pos) wl).trans
            ((extract_high 6 32 (val ++ 0#6) pos).trans
              ((extract_high 0 32 val 0#6).trans (by simp))))))
  simp only [Request.ofWords, a, b, c, d, e, f, g]

/-- The halves of a `PHYS` word (30_encoding.md R81). -/
theorem Phys.word_halves (p : Phys) : (⟨p.word.extractLsb' 0 32, p.word.extractLsb' 32 32⟩ : Phys) = p := by
  have a : p.word.extractLsb' 0 32 = p.num := extract_low p.den p.num
  have b : p.word.extractLsb' 32 32 = p.den := (extract_high 0 32 p.den p.num).trans (by simp)
  rw [a, b]

/-- No request is a wire byte. -/
theorem decodeFields_isWire {r : Request} {i : Instr} (h : decodeFields r = .ok i) : i.isWire = false := by
  unfold decodeFields at h
  split at h
  · cases h
  · split at h <;> cases h <;> rfl

open Machine in
/-- What a well-formed configuration gives (10_state.md R40), as propositions. -/
theorem Config.wellFormed_iff (c : Config) :
    c.wellFormed = true ↔
      (1 ≤ c.n ∧ c.n ≤ 256) ∧ (c.registry.map (·.id)).Nodup ∧ (∀ e ∈ c.registry, e.wellFormed = true)
        ∧ (∀ f ∈ c.subfields, c.subfieldFits f = true) ∧ c.statusServes = true
        ∧ (∀ e ∈ c.registry, c.wire.set e.id ≠ c.wire.nop ∧ c.wire.get e.id ≠ c.wire.nop) ∧ 1 ≤ c.q := by
  have hn : nMax = 256 := rfl
  simp only [Config.wellFormed, Bool.and_eq_true, decide_eq_true_eq, List.all_eq_true, bne_iff_ne, ne_eq, and_assoc, hn]

end Sys2Proof
end

