-- ==== Sys2Proof/Laws/State.lean ====
section
/-! SUPPORT. One lemma per field for each update of the state that Machine/Ops.lean defines: what the update leaves in the field. -/

namespace Sys2Proof.Machine.State

variable (s : State)

@[simp] theorem completeWith_cfg (code : BitVec 4) : (s.completeWith code).cfg = s.cfg := rfl
@[simp] theorem completeWith_fsm (code : BitVec 4) : (s.completeWith code).fsm = .complete := rfl
@[simp] theorem completeWith_owner (code : BitVec 4) : (s.completeWith code).owner = s.owner := rfl
@[simp] theorem completeWith_req (code : BitVec 4) : (s.completeWith code).req = s.req := rfl
@[simp] theorem completeWith_frame (code : BitVec 4) : (s.completeWith code).frame = s.frame := rfl
@[simp] theorem completeWith_flen (code : BitVec 4) : (s.completeWith code).flen = s.flen := rfl
@[simp] theorem completeWith_echo (code : BitVec 4) : (s.completeWith code).echo = s.echo := rfl
@[simp] theorem completeWith_j (code : BitVec 4) : (s.completeWith code).j = s.j := rfl
@[simp] theorem completeWith_t (code : BitVec 4) : (s.completeWith code).t = s.t := rfl
@[simp] theorem completeWith_phase (code : BitVec 4) : (s.completeWith code).phase = s.phase := rfl
@[simp] theorem completeWith_csAsserted (code : BitVec 4) : (s.completeWith code).csAsserted = s.csAsserted := rfl
@[simp] theorem completeWith_rspValid (code : BitVec 4) : (s.completeWith code).rspValid = true := rfl
@[simp] theorem completeWith_rspStatus (code : BitVec 4) : (s.completeWith code).rspStatus = code := rfl
@[simp] theorem completeWith_rspInt (code : BitVec 4) : (s.completeWith code).rspInt = s.rspInt := rfl
@[simp] theorem completeWith_rspPhys (code : BitVec 4) : (s.completeWith code).rspPhys = s.rspPhys := rfl
@[simp] theorem completeWith_rspUnlimited (code : BitVec 4) : (s.completeWith code).rspUnlimited = s.rspUnlimited := rfl
@[simp] theorem completeWith_rspBytes (code : BitVec 4) : (s.completeWith code).rspBytes = s.rspBytes := rfl
@[simp] theorem completeWith_rspLen (code : BitVec 4) : (s.completeWith code).rspLen = s.rspLen := rfl
@[simp] theorem completeWith_rspBool (code : BitVec 4) : (s.completeWith code).rspBool = s.rspBool := rfl
@[simp] theorem completeWith_rspWidth (code : BitVec 4) : (s.completeWith code).rspWidth = s.rspWidth := rfl
@[simp] theorem completeWith_rspAccess (code : BitVec 4) : (s.completeWith code).rspAccess = s.rspAccess := rfl
@[simp] theorem completeWith_chainSuspect (code : BitVec 4) : (s.completeWith code).chainSuspect = s.chainSuspect := rfl
@[simp] theorem completeWith_inp (code : BitVec 4) : (s.completeWith code).inp = s.inp := rfl
@[simp] theorem completeWith_script (code : BitVec 4) : (s.completeWith code).script = s.script := rfl
@[simp] theorem completeWith_tick (code : BitVec 4) : (s.completeWith code).tick = s.tick := rfl
@[simp] theorem completeWith_wire (code : BitVec 4) : (s.completeWith code).wire = s.wire := rfl

@[simp] theorem raise_cfg (e : ErrCode) : (s.raise e).cfg = s.cfg := rfl
@[simp] theorem raise_fsm (e : ErrCode) : (s.raise e).fsm = .complete := rfl
@[simp] theorem raise_owner (e : ErrCode) : (s.raise e).owner = s.owner := rfl
@[simp] theorem raise_req (e : ErrCode) : (s.raise e).req = s.req := rfl
@[simp] theorem raise_frame (e : ErrCode) : (s.raise e).frame = s.frame := rfl
@[simp] theorem raise_flen (e : ErrCode) : (s.raise e).flen = s.flen := rfl
@[simp] theorem raise_echo (e : ErrCode) : (s.raise e).echo = s.echo := rfl
@[simp] theorem raise_j (e : ErrCode) : (s.raise e).j = s.j := rfl
@[simp] theorem raise_t (e : ErrCode) : (s.raise e).t = s.t := rfl
@[simp] theorem raise_phase (e : ErrCode) : (s.raise e).phase = s.phase := rfl
@[simp] theorem raise_csAsserted (e : ErrCode) : (s.raise e).csAsserted = s.csAsserted := rfl
@[simp] theorem raise_rspValid (e : ErrCode) : (s.raise e).rspValid = true := rfl
@[simp] theorem raise_rspStatus (e : ErrCode) : (s.raise e).rspStatus = e.code := rfl
@[simp] theorem raise_rspInt (e : ErrCode) : (s.raise e).rspInt = s.rspInt := rfl
@[simp] theorem raise_rspPhys (e : ErrCode) : (s.raise e).rspPhys = s.rspPhys := rfl
@[simp] theorem raise_rspUnlimited (e : ErrCode) : (s.raise e).rspUnlimited = s.rspUnlimited := rfl
@[simp] theorem raise_rspBytes (e : ErrCode) : (s.raise e).rspBytes = s.rspBytes := rfl
@[simp] theorem raise_rspLen (e : ErrCode) : (s.raise e).rspLen = s.rspLen := rfl
@[simp] theorem raise_rspBool (e : ErrCode) : (s.raise e).rspBool = s.rspBool := rfl
@[simp] theorem raise_rspWidth (e : ErrCode) : (s.raise e).rspWidth = s.rspWidth := rfl
@[simp] theorem raise_rspAccess (e : ErrCode) : (s.raise e).rspAccess = s.rspAccess := rfl
@[simp] theorem raise_chainSuspect (e : ErrCode) : (s.raise e).chainSuspect = s.chainSuspect := rfl
@[simp] theorem raise_inp (e : ErrCode) : (s.raise e).inp = s.inp := rfl
@[simp] theorem raise_script (e : ErrCode) : (s.raise e).script = s.script := rfl
@[simp] theorem raise_tick (e : ErrCode) : (s.raise e).tick = s.tick := rfl
@[simp] theorem raise_wire (e : ErrCode) : (s.raise e).wire = s.wire := rfl

@[simp] theorem respondOk_cfg : (s.respondOk).cfg = s.cfg := rfl
@[simp] theorem respondOk_fsm : (s.respondOk).fsm = .complete := rfl
@[simp] theorem respondOk_owner : (s.respondOk).owner = s.owner := rfl
@[simp] theorem respondOk_req : (s.respondOk).req = s.req := rfl
@[simp] theorem respondOk_frame : (s.respondOk).frame = s.frame := rfl
@[simp] theorem respondOk_flen : (s.respondOk).flen = s.flen := rfl
@[simp] theorem respondOk_echo : (s.respondOk).echo = s.echo := rfl
@[simp] theorem respondOk_j : (s.respondOk).j = s.j := rfl
@[simp] theorem respondOk_t : (s.respondOk).t = s.t := rfl
@[simp] theorem respondOk_phase : (s.respondOk).phase = s.phase := rfl
@[simp] theorem respondOk_csAsserted : (s.respondOk).csAsserted = s.csAsserted := rfl
@[simp] theorem respondOk_rspValid : (s.respondOk).rspValid = true := rfl
@[simp] theorem respondOk_rspStatus : (s.respondOk).rspStatus = statusOk := rfl
@[simp] theorem respondOk_rspInt : (s.respondOk).rspInt = s.rspInt := rfl
@[simp] theorem respondOk_rspPhys : (s.respondOk).rspPhys = s.rspPhys := rfl
@[simp] theorem respondOk_rspUnlimited : (s.respondOk).rspUnlimited = s.rspUnlimited := rfl
@[simp] theorem respondOk_rspBytes : (s.respondOk).rspBytes = s.rspBytes := rfl
@[simp] theorem respondOk_rspLen : (s.respondOk).rspLen = s.rspLen := rfl
@[simp] theorem respondOk_rspBool : (s.respondOk).rspBool = s.rspBool := rfl
@[simp] theorem respondOk_rspWidth : (s.respondOk).rspWidth = s.rspWidth := rfl
@[simp] theorem respondOk_rspAccess : (s.respondOk).rspAccess = s.rspAccess := rfl
@[simp] theorem respondOk_chainSuspect : (s.respondOk).chainSuspect = s.chainSuspect := rfl
@[simp] theorem respondOk_inp : (s.respondOk).inp = s.inp := rfl
@[simp] theorem respondOk_script : (s.respondOk).script = s.script := rfl
@[simp] theorem respondOk_tick : (s.respondOk).tick = s.tick := rfl
@[simp] theorem respondOk_wire : (s.respondOk).wire = s.wire := rfl

@[simp] theorem takeResponse_cfg : (s.takeResponse).cfg = s.cfg := rfl
@[simp] theorem takeResponse_fsm : (s.takeResponse).fsm = .idle := rfl
@[simp] theorem takeResponse_owner : (s.takeResponse).owner = none := rfl
@[simp] theorem takeResponse_req : (s.takeResponse).req = s.req := rfl
@[simp] theorem takeResponse_frame : (s.takeResponse).frame = s.frame := rfl
@[simp] theorem takeResponse_flen : (s.takeResponse).flen = s.flen := rfl
@[simp] theorem takeResponse_echo : (s.takeResponse).echo = s.echo := rfl
@[simp] theorem takeResponse_j : (s.takeResponse).j = 0 := rfl
@[simp] theorem takeResponse_t : (s.takeResponse).t = 0 := rfl
@[simp] theorem takeResponse_phase : (s.takeResponse).phase = 0 := rfl
@[simp] theorem takeResponse_csAsserted : (s.takeResponse).csAsserted = s.csAsserted := rfl
@[simp] theorem takeResponse_rspValid : (s.takeResponse).rspValid = false := rfl
@[simp] theorem takeResponse_rspStatus : (s.takeResponse).rspStatus = s.rspStatus := rfl
@[simp] theorem takeResponse_rspInt : (s.takeResponse).rspInt = s.rspInt := rfl
@[simp] theorem takeResponse_rspPhys : (s.takeResponse).rspPhys = s.rspPhys := rfl
@[simp] theorem takeResponse_rspUnlimited : (s.takeResponse).rspUnlimited = s.rspUnlimited := rfl
@[simp] theorem takeResponse_rspBytes : (s.takeResponse).rspBytes = s.rspBytes := rfl
@[simp] theorem takeResponse_rspLen : (s.takeResponse).rspLen = s.rspLen := rfl
@[simp] theorem takeResponse_rspBool : (s.takeResponse).rspBool = s.rspBool := rfl
@[simp] theorem takeResponse_rspWidth : (s.takeResponse).rspWidth = s.rspWidth := rfl
@[simp] theorem takeResponse_rspAccess : (s.takeResponse).rspAccess = s.rspAccess := rfl
@[simp] theorem takeResponse_chainSuspect : (s.takeResponse).chainSuspect = s.chainSuspect := rfl
@[simp] theorem takeResponse_inp : (s.takeResponse).inp = s.inp := rfl
@[simp] theorem takeResponse_script : (s.takeResponse).script = s.script := rfl
@[simp] theorem takeResponse_tick : (s.takeResponse).tick = s.tick := rfl
@[simp] theorem takeResponse_wire : (s.takeResponse).wire = s.wire := rfl

@[simp] theorem assertCs_cfg : (s.assertCs).cfg = s.cfg := rfl
@[simp] theorem assertCs_fsm : (s.assertCs).fsm = s.fsm := rfl
@[simp] theorem assertCs_owner : (s.assertCs).owner = s.owner := rfl
@[simp] theorem assertCs_req : (s.assertCs).req = s.req := rfl
@[simp] theorem assertCs_frame : (s.assertCs).frame = s.frame := rfl
@[simp] theorem assertCs_flen : (s.assertCs).flen = s.flen := rfl
@[simp] theorem assertCs_echo : (s.assertCs).echo = s.echo := rfl
@[simp] theorem assertCs_j : (s.assertCs).j = s.j := rfl
@[simp] theorem assertCs_t : (s.assertCs).t = s.t := rfl
@[simp] theorem assertCs_phase : (s.assertCs).phase = s.phase := rfl
@[simp] theorem assertCs_csAsserted : (s.assertCs).csAsserted = true := rfl
@[simp] theorem assertCs_rspValid : (s.assertCs).rspValid = s.rspValid := rfl
@[simp] theorem assertCs_rspStatus : (s.assertCs).rspStatus = s.rspStatus := rfl
@[simp] theorem assertCs_rspInt : (s.assertCs).rspInt = s.rspInt := rfl
@[simp] theorem assertCs_rspPhys : (s.assertCs).rspPhys = s.rspPhys := rfl
@[simp] theorem assertCs_rspUnlimited : (s.assertCs).rspUnlimited = s.rspUnlimited := rfl
@[simp] theorem assertCs_rspBytes : (s.assertCs).rspBytes = s.rspBytes := rfl
@[simp] theorem assertCs_rspLen : (s.assertCs).rspLen = s.rspLen := rfl
@[simp] theorem assertCs_rspBool : (s.assertCs).rspBool = s.rspBool := rfl
@[simp] theorem assertCs_rspWidth : (s.assertCs).rspWidth = s.rspWidth := rfl
@[simp] theorem assertCs_rspAccess : (s.assertCs).rspAccess = s.rspAccess := rfl
@[simp] theorem assertCs_chainSuspect : (s.assertCs).chainSuspect = s.chainSuspect := rfl
@[simp] theorem assertCs_inp : (s.assertCs).inp = s.inp := rfl
@[simp] theorem assertCs_script : (s.assertCs).script = s.script := rfl
@[simp] theorem assertCs_tick : (s.assertCs).tick = s.tick := rfl
@[simp] theorem assertCs_wire : (s.assertCs).wire = s.wire ++ [.csAssert] := rfl

@[simp] theorem deassertCs_cfg : (s.deassertCs).cfg = s.cfg := rfl
@[simp] theorem deassertCs_fsm : (s.deassertCs).fsm = s.fsm := rfl
@[simp] theorem deassertCs_owner : (s.deassertCs).owner = s.owner := rfl
@[simp] theorem deassertCs_req : (s.deassertCs).req = s.req := rfl
@[simp] theorem deassertCs_frame : (s.deassertCs).frame = s.frame := rfl
@[simp] theorem deassertCs_flen : (s.deassertCs).flen = s.flen := rfl
@[simp] theorem deassertCs_echo : (s.deassertCs).echo = s.echo := rfl
@[simp] theorem deassertCs_j : (s.deassertCs).j = s.j := rfl
@[simp] theorem deassertCs_t : (s.deassertCs).t = s.t := rfl
@[simp] theorem deassertCs_phase : (s.deassertCs).phase = s.phase := rfl
@[simp] theorem deassertCs_csAsserted : (s.deassertCs).csAsserted = false := rfl
@[simp] theorem deassertCs_rspValid : (s.deassertCs).rspValid = s.rspValid := rfl
@[simp] theorem deassertCs_rspStatus : (s.deassertCs).rspStatus = s.rspStatus := rfl
@[simp] theorem deassertCs_rspInt : (s.deassertCs).rspInt = s.rspInt := rfl
@[simp] theorem deassertCs_rspPhys : (s.deassertCs).rspPhys = s.rspPhys := rfl
@[simp] theorem deassertCs_rspUnlimited : (s.deassertCs).rspUnlimited = s.rspUnlimited := rfl
@[simp] theorem deassertCs_rspBytes : (s.deassertCs).rspBytes = s.rspBytes := rfl
@[simp] theorem deassertCs_rspLen : (s.deassertCs).rspLen = s.rspLen := rfl
@[simp] theorem deassertCs_rspBool : (s.deassertCs).rspBool = s.rspBool := rfl
@[simp] theorem deassertCs_rspWidth : (s.deassertCs).rspWidth = s.rspWidth := rfl
@[simp] theorem deassertCs_rspAccess : (s.deassertCs).rspAccess = s.rspAccess := rfl
@[simp] theorem deassertCs_chainSuspect : (s.deassertCs).chainSuspect = s.chainSuspect := rfl
@[simp] theorem deassertCs_inp : (s.deassertCs).inp = s.inp := rfl
@[simp] theorem deassertCs_script : (s.deassertCs).script = s.script := rfl
@[simp] theorem deassertCs_tick : (s.deassertCs).tick = s.tick := rfl
@[simp] theorem deassertCs_wire : (s.deassertCs).wire = s.wire ++ [.csDeassert] := rfl

@[simp] theorem startTransaction_cfg (bs : List Byte) : (s.startTransaction bs).cfg = s.cfg := rfl
@[simp] theorem startTransaction_fsm (bs : List Byte) : (s.startTransaction bs).fsm = .shifting := rfl
@[simp] theorem startTransaction_owner (bs : List Byte) : (s.startTransaction bs).owner = s.owner := rfl
@[simp] theorem startTransaction_req (bs : List Byte) : (s.startTransaction bs).req = s.req := rfl
@[simp] theorem startTransaction_frame (bs : List Byte) : (s.startTransaction bs).frame = overlay s.frame bs := rfl
@[simp] theorem startTransaction_flen (bs : List Byte) : (s.startTransaction bs).flen = bs.length := rfl
@[simp] theorem startTransaction_echo (bs : List Byte) : (s.startTransaction bs).echo = s.echo := rfl
@[simp] theorem startTransaction_j (bs : List Byte) : (s.startTransaction bs).j = 0 := rfl
@[simp] theorem startTransaction_t (bs : List Byte) : (s.startTransaction bs).t = 0 := rfl
@[simp] theorem startTransaction_phase (bs : List Byte) : (s.startTransaction bs).phase = s.phase := rfl
@[simp] theorem startTransaction_csAsserted (bs : List Byte) : (s.startTransaction bs).csAsserted = true := rfl
@[simp] theorem startTransaction_rspValid (bs : List Byte) : (s.startTransaction bs).rspValid = s.rspValid := rfl
@[simp] theorem startTransaction_rspStatus (bs : List Byte) : (s.startTransaction bs).rspStatus = s.rspStatus := rfl
@[simp] theorem startTransaction_rspInt (bs : List Byte) : (s.startTransaction bs).rspInt = s.rspInt := rfl
@[simp] theorem startTransaction_rspPhys (bs : List Byte) : (s.startTransaction bs).rspPhys = s.rspPhys := rfl
@[simp] theorem startTransaction_rspUnlimited (bs : List Byte) : (s.startTransaction bs).rspUnlimited = s.rspUnlimited := rfl
@[simp] theorem startTransaction_rspBytes (bs : List Byte) : (s.startTransaction bs).rspBytes = s.rspBytes := rfl
@[simp] theorem startTransaction_rspLen (bs : List Byte) : (s.startTransaction bs).rspLen = s.rspLen := rfl
@[simp] theorem startTransaction_rspBool (bs : List Byte) : (s.startTransaction bs).rspBool = s.rspBool := rfl
@[simp] theorem startTransaction_rspWidth (bs : List Byte) : (s.startTransaction bs).rspWidth = s.rspWidth := rfl
@[simp] theorem startTransaction_rspAccess (bs : List Byte) : (s.startTransaction bs).rspAccess = s.rspAccess := rfl
@[simp] theorem startTransaction_chainSuspect (bs : List Byte) : (s.startTransaction bs).chainSuspect = s.chainSuspect := rfl
@[simp] theorem startTransaction_inp (bs : List Byte) : (s.startTransaction bs).inp = s.inp := rfl
@[simp] theorem startTransaction_script (bs : List Byte) : (s.startTransaction bs).script = s.script := rfl
@[simp] theorem startTransaction_tick (bs : List Byte) : (s.startTransaction bs).tick = s.tick := rfl
@[simp] theorem startTransaction_wire (bs : List Byte) : (s.startTransaction bs).wire = s.wire ++ [.csAssert] := rfl

@[simp] theorem busFail_cfg : (s.busFail).cfg = s.cfg := rfl
@[simp] theorem busFail_fsm : (s.busFail).fsm = .complete := rfl
@[simp] theorem busFail_owner : (s.busFail).owner = s.owner := rfl
@[simp] theorem busFail_req : (s.busFail).req = s.req := rfl
@[simp] theorem busFail_frame : (s.busFail).frame = s.frame := rfl
@[simp] theorem busFail_flen : (s.busFail).flen = s.flen := rfl
@[simp] theorem busFail_echo : (s.busFail).echo = s.echo := rfl
@[simp] theorem busFail_j : (s.busFail).j = s.j := rfl
@[simp] theorem busFail_t : (s.busFail).t = s.t := rfl
@[simp] theorem busFail_phase : (s.busFail).phase = s.phase := rfl
@[simp] theorem busFail_csAsserted : (s.busFail).csAsserted = false := rfl
@[simp] theorem busFail_rspValid : (s.busFail).rspValid = true := rfl
@[simp] theorem busFail_rspStatus : (s.busFail).rspStatus = ErrCode.busTransferFailed.code := rfl
@[simp] theorem busFail_rspInt : (s.busFail).rspInt = s.rspInt := rfl
@[simp] theorem busFail_rspPhys : (s.busFail).rspPhys = s.rspPhys := rfl
@[simp] theorem busFail_rspUnlimited : (s.busFail).rspUnlimited = s.rspUnlimited := rfl
@[simp] theorem busFail_rspBytes : (s.busFail).rspBytes = s.rspBytes := rfl
@[simp] theorem busFail_rspLen : (s.busFail).rspLen = s.rspLen := rfl
@[simp] theorem busFail_rspBool : (s.busFail).rspBool = s.rspBool := rfl
@[simp] theorem busFail_rspWidth : (s.busFail).rspWidth = s.rspWidth := rfl
@[simp] theorem busFail_rspAccess : (s.busFail).rspAccess = s.rspAccess := rfl
@[simp] theorem busFail_chainSuspect : (s.busFail).chainSuspect = true := rfl
@[simp] theorem busFail_inp : (s.busFail).inp = s.inp := rfl
@[simp] theorem busFail_script : (s.busFail).script = s.script := rfl
@[simp] theorem busFail_tick : (s.busFail).tick = s.tick := rfl
@[simp] theorem busFail_wire : (s.busFail).wire = s.wire ++ [.csDeassert] := rfl

@[simp] theorem capture_cfg (b : Byte) : (s.capture b).cfg = s.cfg := rfl
@[simp] theorem capture_fsm (b : Byte) : (s.capture b).fsm = s.fsm := rfl
@[simp] theorem capture_owner (b : Byte) : (s.capture b).owner = s.owner := rfl
@[simp] theorem capture_req (b : Byte) : (s.capture b).req = s.req := rfl
@[simp] theorem capture_frame (b : Byte) : (s.capture b).frame = s.frame := rfl
@[simp] theorem capture_flen (b : Byte) : (s.capture b).flen = s.flen := rfl
@[simp] theorem capture_echo (b : Byte) : (s.capture b).echo = if s.cfg.slotpos s.t = s.req.pos.toNat then s.echo.setIfInBounds s.j s.inp.bus.rx else s.echo := rfl
@[simp] theorem capture_j (b : Byte) : (s.capture b).j = s.j := rfl
@[simp] theorem capture_t (b : Byte) : (s.capture b).t = s.t := rfl
@[simp] theorem capture_phase (b : Byte) : (s.capture b).phase = s.phase := rfl
@[simp] theorem capture_csAsserted (b : Byte) : (s.capture b).csAsserted = s.csAsserted := rfl
@[simp] theorem capture_rspValid (b : Byte) : (s.capture b).rspValid = s.rspValid := rfl
@[simp] theorem capture_rspStatus (b : Byte) : (s.capture b).rspStatus = s.rspStatus := rfl
@[simp] theorem capture_rspInt (b : Byte) : (s.capture b).rspInt = s.rspInt := rfl
@[simp] theorem capture_rspPhys (b : Byte) : (s.capture b).rspPhys = s.rspPhys := rfl
@[simp] theorem capture_rspUnlimited (b : Byte) : (s.capture b).rspUnlimited = s.rspUnlimited := rfl
@[simp] theorem capture_rspBytes (b : Byte) : (s.capture b).rspBytes = s.rspBytes := rfl
@[simp] theorem capture_rspLen (b : Byte) : (s.capture b).rspLen = s.rspLen := rfl
@[simp] theorem capture_rspBool (b : Byte) : (s.capture b).rspBool = s.rspBool := rfl
@[simp] theorem capture_rspWidth (b : Byte) : (s.capture b).rspWidth = s.rspWidth := rfl
@[simp] theorem capture_rspAccess (b : Byte) : (s.capture b).rspAccess = s.rspAccess := rfl
@[simp] theorem capture_chainSuspect (b : Byte) : (s.capture b).chainSuspect = s.chainSuspect := rfl
@[simp] theorem capture_inp (b : Byte) : (s.capture b).inp = s.inp := rfl
@[simp] theorem capture_script (b : Byte) : (s.capture b).script = s.script := rfl
@[simp] theorem capture_tick (b : Byte) : (s.capture b).tick = s.tick := rfl
@[simp] theorem capture_wire (b : Byte) : (s.capture b).wire = s.wire ++ [.xfer b (some s.inp.bus.rx)] := rfl

@[simp] theorem withEcho_cfg : (s.withEcho).cfg = s.cfg := rfl
@[simp] theorem withEcho_fsm : (s.withEcho).fsm = s.fsm := rfl
@[simp] theorem withEcho_owner : (s.withEcho).owner = s.owner := rfl
@[simp] theorem withEcho_req : (s.withEcho).req = s.req := rfl
@[simp] theorem withEcho_frame : (s.withEcho).frame = s.frame := rfl
@[simp] theorem withEcho_flen : (s.withEcho).flen = s.flen := rfl
@[simp] theorem withEcho_echo : (s.withEcho).echo = s.echo := rfl
@[simp] theorem withEcho_j : (s.withEcho).j = s.j := rfl
@[simp] theorem withEcho_t : (s.withEcho).t = s.t := rfl
@[simp] theorem withEcho_phase : (s.withEcho).phase = s.phase := rfl
@[simp] theorem withEcho_csAsserted : (s.withEcho).csAsserted = s.csAsserted := rfl
@[simp] theorem withEcho_rspValid : (s.withEcho).rspValid = s.rspValid := rfl
@[simp] theorem withEcho_rspStatus : (s.withEcho).rspStatus = s.rspStatus := rfl
@[simp] theorem withEcho_rspInt : (s.withEcho).rspInt = s.rspInt := rfl
@[simp] theorem withEcho_rspPhys : (s.withEcho).rspPhys = s.rspPhys := rfl
@[simp] theorem withEcho_rspUnlimited : (s.withEcho).rspUnlimited = s.rspUnlimited := rfl
@[simp] theorem withEcho_rspBytes : (s.withEcho).rspBytes = overlay s.rspBytes s.echoBytes := rfl
@[simp] theorem withEcho_rspLen : (s.withEcho).rspLen = BitVec.ofNat 3 s.flen := rfl
@[simp] theorem withEcho_rspBool : (s.withEcho).rspBool = s.rspBool := rfl
@[simp] theorem withEcho_rspWidth : (s.withEcho).rspWidth = s.rspWidth := rfl
@[simp] theorem withEcho_rspAccess : (s.withEcho).rspAccess = s.rspAccess := rfl
@[simp] theorem withEcho_chainSuspect : (s.withEcho).chainSuspect = s.chainSuspect := rfl
@[simp] theorem withEcho_inp : (s.withEcho).inp = s.inp := rfl
@[simp] theorem withEcho_script : (s.withEcho).script = s.script := rfl
@[simp] theorem withEcho_tick : (s.withEcho).tick = s.tick := rfl
@[simp] theorem withEcho_wire : (s.withEcho).wire = s.wire := rfl

@[simp] theorem accept_cfg (q : Nat) (p : ReqPort) : (s.accept q p).cfg = s.cfg := rfl
@[simp] theorem accept_fsm (q : Nat) (p : ReqPort) : (s.accept q p).fsm = .addressing := rfl
@[simp] theorem accept_owner (q : Nat) (p : ReqPort) : (s.accept q p).owner = some q := rfl
@[simp] theorem accept_req (q : Nat) (p : ReqPort) : (s.accept q p).req = Request.ofWords p.word p.phys := rfl
@[simp] theorem accept_frame (q : Nat) (p : ReqPort) : (s.accept q p).frame = s.frame := rfl
@[simp] theorem accept_flen (q : Nat) (p : ReqPort) : (s.accept q p).flen = s.flen := rfl
@[simp] theorem accept_echo (q : Nat) (p : ReqPort) : (s.accept q p).echo = s.echo := rfl
@[simp] theorem accept_j (q : Nat) (p : ReqPort) : (s.accept q p).j = 0 := rfl
@[simp] theorem accept_t (q : Nat) (p : ReqPort) : (s.accept q p).t = 0 := rfl
@[simp] theorem accept_phase (q : Nat) (p : ReqPort) : (s.accept q p).phase = 0 := rfl
@[simp] theorem accept_csAsserted (q : Nat) (p : ReqPort) : (s.accept q p).csAsserted = s.csAsserted := rfl
@[simp] theorem accept_rspValid (q : Nat) (p : ReqPort) : (s.accept q p).rspValid = s.rspValid := rfl
@[simp] theorem accept_rspStatus (q : Nat) (p : ReqPort) : (s.accept q p).rspStatus = s.rspStatus := rfl
@[simp] theorem accept_rspInt (q : Nat) (p : ReqPort) : (s.accept q p).rspInt = s.rspInt := rfl
@[simp] theorem accept_rspPhys (q : Nat) (p : ReqPort) : (s.accept q p).rspPhys = s.rspPhys := rfl
@[simp] theorem accept_rspUnlimited (q : Nat) (p : ReqPort) : (s.accept q p).rspUnlimited = s.rspUnlimited := rfl
@[simp] theorem accept_rspBytes (q : Nat) (p : ReqPort) : (s.accept q p).rspBytes = s.rspBytes := rfl
@[simp] theorem accept_rspLen (q : Nat) (p : ReqPort) : (s.accept q p).rspLen = s.rspLen := rfl
@[simp] theorem accept_rspBool (q : Nat) (p : ReqPort) : (s.accept q p).rspBool = s.rspBool := rfl
@[simp] theorem accept_rspWidth (q : Nat) (p : ReqPort) : (s.accept q p).rspWidth = s.rspWidth := rfl
@[simp] theorem accept_rspAccess (q : Nat) (p : ReqPort) : (s.accept q p).rspAccess = s.rspAccess := rfl
@[simp] theorem accept_chainSuspect (q : Nat) (p : ReqPort) : (s.accept q p).chainSuspect = s.chainSuspect := rfl
@[simp] theorem accept_inp (q : Nat) (p : ReqPort) : (s.accept q p).inp = s.inp := rfl
@[simp] theorem accept_script (q : Nat) (p : ReqPort) : (s.accept q p).script = s.script := rfl
@[simp] theorem accept_tick (q : Nat) (p : ReqPort) : (s.accept q p).tick = s.tick := rfl
@[simp] theorem accept_wire (q : Nat) (p : ReqPort) : (s.accept q p).wire = s.wire := rfl

@[simp] theorem blockReset_cfg : (s.blockReset).cfg = s.cfg := rfl
@[simp] theorem blockReset_fsm : (s.blockReset).fsm = .idle := rfl
@[simp] theorem blockReset_owner : (s.blockReset).owner = none := rfl
@[simp] theorem blockReset_req : (s.blockReset).req = zeroRequest := rfl
@[simp] theorem blockReset_frame : (s.blockReset).frame = Vector.replicate 4 0 := rfl
@[simp] theorem blockReset_flen : (s.blockReset).flen = 1 := rfl
@[simp] theorem blockReset_echo : (s.blockReset).echo = Vector.replicate 4 0 := rfl
@[simp] theorem blockReset_j : (s.blockReset).j = 0 := rfl
@[simp] theorem blockReset_t : (s.blockReset).t = 0 := rfl
@[simp] theorem blockReset_phase : (s.blockReset).phase = 0 := rfl
@[simp] theorem blockReset_csAsserted : (s.blockReset).csAsserted = false := rfl
@[simp] theorem blockReset_rspValid : (s.blockReset).rspValid = false := rfl
@[simp] theorem blockReset_rspStatus : (s.blockReset).rspStatus = 0 := rfl
@[simp] theorem blockReset_rspInt : (s.blockReset).rspInt = 0 := rfl
@[simp] theorem blockReset_rspPhys : (s.blockReset).rspPhys = 0 := rfl
@[simp] theorem blockReset_rspUnlimited : (s.blockReset).rspUnlimited = false := rfl
@[simp] theorem blockReset_rspBytes : (s.blockReset).rspBytes = Vector.replicate 4 0 := rfl
@[simp] theorem blockReset_rspLen : (s.blockReset).rspLen = 0 := rfl
@[simp] theorem blockReset_rspBool : (s.blockReset).rspBool = false := rfl
@[simp] theorem blockReset_rspWidth : (s.blockReset).rspWidth = 0 := rfl
@[simp] theorem blockReset_rspAccess : (s.blockReset).rspAccess = 0 := rfl
@[simp] theorem blockReset_chainSuspect : (s.blockReset).chainSuspect = false := rfl
@[simp] theorem blockReset_inp : (s.blockReset).inp = s.inp := rfl
@[simp] theorem blockReset_script : (s.blockReset).script = s.script := rfl
@[simp] theorem blockReset_tick : (s.blockReset).tick = s.tick := rfl
@[simp] theorem blockReset_wire : (s.blockReset).wire = if s.csAsserted then s.wire ++ [.csDeassert] else s.wire := rfl

@[simp] theorem betweenCycles_cfg : (s.betweenCycles).cfg = s.cfg := by unfold betweenCycles; split <;> simp_all
@[simp] theorem betweenCycles_fsm : (s.betweenCycles).fsm = s.fsm := by unfold betweenCycles; split <;> simp_all
@[simp] theorem betweenCycles_owner : (s.betweenCycles).owner = s.owner := by unfold betweenCycles; split <;> simp_all
@[simp] theorem betweenCycles_req : (s.betweenCycles).req = s.req := by unfold betweenCycles; split <;> simp_all
@[simp] theorem betweenCycles_frame : (s.betweenCycles).frame = s.frame := by unfold betweenCycles; split <;> simp_all
@[simp] theorem betweenCycles_flen : (s.betweenCycles).flen = s.flen := by unfold betweenCycles; split <;> simp_all
@[simp] theorem betweenCycles_echo : (s.betweenCycles).echo = s.echo := by unfold betweenCycles; split <;> simp_all
@[simp] theorem betweenCycles_j : (s.betweenCycles).j = s.j := by unfold betweenCycles; split <;> simp_all
@[simp] theorem betweenCycles_t : (s.betweenCycles).t = s.t := by unfold betweenCycles; split <;> simp_all
@[simp] theorem betweenCycles_phase : (s.betweenCycles).phase = s.phase := by unfold betweenCycles; split <;> simp_all
@[simp] theorem betweenCycles_csAsserted : (s.betweenCycles).csAsserted = (s.csAsserted || s.cfg.csReleasePerCycle) := by unfold betweenCycles; split <;> simp_all
@[simp] theorem betweenCycles_rspValid : (s.betweenCycles).rspValid = s.rspValid := by unfold betweenCycles; split <;> simp_all
@[simp] theorem betweenCycles_rspStatus : (s.betweenCycles).rspStatus = s.rspStatus := by unfold betweenCycles; split <;> simp_all
@[simp] theorem betweenCycles_rspInt : (s.betweenCycles).rspInt = s.rspInt := by unfold betweenCycles; split <;> simp_all
@[simp] theorem betweenCycles_rspPhys : (s.betweenCycles).rspPhys = s.rspPhys := by unfold betweenCycles; split <;> simp_all
@[simp] theorem betweenCycles_rspUnlimited : (s.betweenCycles).rspUnlimited = s.rspUnlimited := by unfold betweenCycles; split <;> simp_all
@[simp] theorem betweenCycles_rspBytes : (s.betweenCycles).rspBytes = s.rspBytes := by unfold betweenCycles; split <;> simp_all
@[simp] theorem betweenCycles_rspLen : (s.betweenCycles).rspLen = s.rspLen := by unfold betweenCycles; split <;> simp_all
@[simp] theorem betweenCycles_rspBool : (s.betweenCycles).rspBool = s.rspBool := by unfold betweenCycles; split <;> simp_all
@[simp] theorem betweenCycles_rspWidth : (s.betweenCycles).rspWidth = s.rspWidth := by unfold betweenCycles; split <;> simp_all
@[simp] theorem betweenCycles_rspAccess : (s.betweenCycles).rspAccess = s.rspAccess := by unfold betweenCycles; split <;> simp_all
@[simp] theorem betweenCycles_chainSuspect : (s.betweenCycles).chainSuspect = s.chainSuspect := by unfold betweenCycles; split <;> simp_all
@[simp] theorem betweenCycles_inp : (s.betweenCycles).inp = s.inp := by unfold betweenCycles; split <;> simp_all
@[simp] theorem betweenCycles_script : (s.betweenCycles).script = s.script := by unfold betweenCycles; split <;> simp_all
@[simp] theorem betweenCycles_tick : (s.betweenCycles).tick = s.tick := by unfold betweenCycles; split <;> simp_all
@[simp] theorem betweenCycles_wire : (s.betweenCycles).wire = if s.cfg.csReleasePerCycle then s.wire ++ [.csDeassert, .csAssert] else s.wire := by unfold betweenCycles; split <;> simp_all

@[simp] theorem nextInputs_cfg : (s.nextInputs).cfg = s.cfg := by unfold nextInputs; split <;> simp_all
@[simp] theorem nextInputs_fsm : (s.nextInputs).fsm = s.fsm := by unfold nextInputs; split <;> simp_all
@[simp] theorem nextInputs_owner : (s.nextInputs).owner = s.owner := by unfold nextInputs; split <;> simp_all
@[simp] theorem nextInputs_req : (s.nextInputs).req = s.req := by unfold nextInputs; split <;> simp_all
@[simp] theorem nextInputs_frame : (s.nextInputs).frame = s.frame := by unfold nextInputs; split <;> simp_all
@[simp] theorem nextInputs_flen : (s.nextInputs).flen = s.flen := by unfold nextInputs; split <;> simp_all
@[simp] theorem nextInputs_echo : (s.nextInputs).echo = s.echo := by unfold nextInputs; split <;> simp_all
@[simp] theorem nextInputs_j : (s.nextInputs).j = s.j := by unfold nextInputs; split <;> simp_all
@[simp] theorem nextInputs_t : (s.nextInputs).t = s.t := by unfold nextInputs; split <;> simp_all
@[simp] theorem nextInputs_phase : (s.nextInputs).phase = s.phase := by unfold nextInputs; split <;> simp_all
@[simp] theorem nextInputs_csAsserted : (s.nextInputs).csAsserted = s.csAsserted := by unfold nextInputs; split <;> simp_all
@[simp] theorem nextInputs_rspValid : (s.nextInputs).rspValid = s.rspValid := by unfold nextInputs; split <;> simp_all
@[simp] theorem nextInputs_rspStatus : (s.nextInputs).rspStatus = s.rspStatus := by unfold nextInputs; split <;> simp_all
@[simp] theorem nextInputs_rspInt : (s.nextInputs).rspInt = s.rspInt := by unfold nextInputs; split <;> simp_all
@[simp] theorem nextInputs_rspPhys : (s.nextInputs).rspPhys = s.rspPhys := by unfold nextInputs; split <;> simp_all
@[simp] theorem nextInputs_rspUnlimited : (s.nextInputs).rspUnlimited = s.rspUnlimited := by unfold nextInputs; split <;> simp_all
@[simp] theorem nextInputs_rspBytes : (s.nextInputs).rspBytes = s.rspBytes := by unfold nextInputs; split <;> simp_all
@[simp] theorem nextInputs_rspLen : (s.nextInputs).rspLen = s.rspLen := by unfold nextInputs; split <;> simp_all
@[simp] theorem nextInputs_rspBool : (s.nextInputs).rspBool = s.rspBool := by unfold nextInputs; split <;> simp_all
@[simp] theorem nextInputs_rspWidth : (s.nextInputs).rspWidth = s.rspWidth := by unfold nextInputs; split <;> simp_all
@[simp] theorem nextInputs_rspAccess : (s.nextInputs).rspAccess = s.rspAccess := by unfold nextInputs; split <;> simp_all
@[simp] theorem nextInputs_chainSuspect : (s.nextInputs).chainSuspect = s.chainSuspect := by unfold nextInputs; split <;> simp_all
@[simp] theorem nextInputs_inp : (s.nextInputs).inp = s.script.headD (Config.freeInputs s.tick) := by unfold nextInputs; split <;> simp_all
@[simp] theorem nextInputs_script : (s.nextInputs).script = s.script.tail := by unfold nextInputs; split <;> simp_all
@[simp] theorem nextInputs_tick : (s.nextInputs).tick = if s.script.isEmpty then s.tick + 1 else s.tick := by unfold nextInputs; split <;> simp_all
@[simp] theorem nextInputs_wire : (s.nextInputs).wire = s.wire := by unfold nextInputs; split <;> simp_all

end Sys2Proof.Machine.State
end

