-- ==== Sys2Proof/Laws/Exec.lean ====
section
/-! SUPPORT. Everything an instruction, an exchange and a step can do, said once each; the claims about every instruction cite these
and never unfold a meaning. -/

namespace Sys2Proof.Machine

/-- No check reports a bus failure or an illegal operation (60_exceptions.md R300). -/
def ErrCode.OfCheck (e : ErrCode) : Prop := e ≠ .busTransferFailed ∧ e ≠ .illegalOperation

theorem settle_cases {α : Type} {s : State} {checks : Except ErrCode α} {go : α → State} :
    (∃ e, checks = .error e ∧ settle s checks go = .next (s.raise e)) ∨
      ∃ a, checks = .ok a ∧ settle s checks go = .next (go a) := by
  cases h : checks with
  | error e => exact .inl ⟨e, rfl, rfl⟩
  | ok a => exact .inr ⟨a, rfl, rfl⟩

theorem bind_ofCheck {α β : Type} {x : Except ErrCode α} {f : α → Except ErrCode β} {e : ErrCode}
    (hx : ∀ e, x = .error e → e.OfCheck) (hf : ∀ a e, f a = .error e → e.OfCheck)
    (h : (x >>= f) = .error e) : e.OfCheck := by
  cases x with
  | error e' => exact hx e (by simpa [bind, Except.bind] using h)
  | ok a => exact hf a e (by simpa [bind, Except.bind] using h)

theorem checkRegister_ofCheck {c : Config} {reg : RegId} {e : ErrCode} (h : checkRegister c reg = .error e) : e.OfCheck := by
  unfold checkRegister at h
  split at h
  · cases h; simp [ErrCode.OfCheck]
  · split at h <;> cases h; simp [ErrCode.OfCheck]

theorem checkField_ofCheck {c : Config} {reg : RegId} {fld : FieldId} {e : ErrCode} (h : checkField c reg fld = .error e) :
    e.OfCheck := by
  unfold checkField at h
  split at h
  · cases h; simp [ErrCode.OfCheck]
  · split at h
    · cases h; simp [ErrCode.OfCheck]
    · split at h <;> cases h; simp [ErrCode.OfCheck]

theorem checkPosition_ofCheck {c : Config} {pos : Pos} {e : ErrCode} (h : checkPosition c pos = .error e) : e.OfCheck := by
  unfold checkPosition at h
  split at h <;> cases h; simp [ErrCode.OfCheck]

theorem checkWritable_ofCheck {x : Entry} {e : ErrCode} (h : checkWritable x = .error e) : e.OfCheck := by
  unfold checkWritable at h
  split at h <;> cases h; simp [ErrCode.OfCheck]

theorem checkFrameLength_ofCheck {len : BitVec 5} {e : ErrCode} (h : checkFrameLength len = .error e) : e.OfCheck := by
  unfold checkFrameLength at h
  split at h <;> cases h; simp [ErrCode.OfCheck]

theorem checkWidth_ofCheck {w : BitVec 5} {e : ErrCode} (h : checkWidth w = .error e) : e.OfCheck := by
  unfold checkWidth at h
  split at h <;> cases h; simp [ErrCode.OfCheck]

theorem physValue_ofCheck {p : Phys} {e : ErrCode} (h : physValue p = .error e) : e.OfCheck := by
  unfold physValue at h
  split at h <;> cases h; simp [ErrCode.OfCheck]

theorem convert_ofCheck {x : Entry} {v : Rat} {e : ErrCode} (h : convert x v = .error e) : e.OfCheck := by
  unfold convert at h
  split at h
  · unfold convIdentity at h
    split at h <;> cases h; simp [ErrCode.OfCheck]
  · cases h
  · cases h

theorem convertOperands_ofCheck {c : Config} {reg : RegId} {phys : Phys} {e : ErrCode}
    (h : convertOperands c reg phys = .error e) : e.OfCheck :=
  bind_ofCheck (fun _ => checkRegister_ofCheck)
    (fun _ _ => bind_ofCheck (fun _ => physValue_ofCheck) fun _ _ => convert_ofCheck) h

theorem invertOperands_ofCheck {c : Config} {reg : RegId} {val : Word32} {e : ErrCode}
    (h : invertOperands c reg val = .error e) : e.OfCheck :=
  bind_ofCheck (fun _ => checkRegister_ofCheck) (fun _ _ h => by
    split at h
    · cases h; simp [ErrCode.OfCheck]
    · cases h) h

theorem setParamOperands_ofCheck {c : Config} {pos : Pos} {reg : RegId} {phys : Phys} {e : ErrCode}
    (h : setParamOperands c pos reg phys = .error e) : e.OfCheck :=
  bind_ofCheck (fun _ => checkRegister_ofCheck) (fun _ _ => bind_ofCheck (fun _ => checkPosition_ofCheck)
    fun _ _ => bind_ofCheck (fun _ => checkWritable_ofCheck) fun _ _ => bind_ofCheck (fun _ => physValue_ofCheck)
      fun _ _ => bind_ofCheck (fun _ => convert_ofCheck) fun _ _ h => by cases h) h

theorem setRawOperands_ofCheck {c : Config} {pos : Pos} {reg : RegId} {val : Word32} {e : ErrCode}
    (h : setRawOperands c pos reg val = .error e) : e.OfCheck :=
  bind_ofCheck (fun _ => checkRegister_ofCheck) (fun _ _ => bind_ofCheck (fun _ => checkPosition_ofCheck)
    fun _ _ => bind_ofCheck (fun _ => checkWritable_ofCheck) fun _ _ h => by cases h) h

theorem getParamOperands_ofCheck {c : Config} {pos : Pos} {reg : RegId} {e : ErrCode}
    (h : getParamOperands c pos reg = .error e) : e.OfCheck :=
  bind_ofCheck (fun _ => checkRegister_ofCheck) (fun _ _ => bind_ofCheck (fun _ => checkPosition_ofCheck)
    fun _ _ h => by cases h) h

theorem xferOperands_ofCheck {c : Config} {pos : Pos} {len : BitVec 5} {bytes : Word32} {e : ErrCode}
    (h : xferOperands c pos len bytes = .error e) : e.OfCheck :=
  bind_ofCheck (fun _ => checkFrameLength_ofCheck) (fun _ _ => bind_ofCheck (fun _ => checkPosition_ofCheck)
    fun _ _ h => by cases h) h

theorem getSubfieldOperands_ofCheck {c : Config} {pos : Pos} {reg : RegId} {fld : FieldId} {e : ErrCode}
    (h : getSubfieldOperands c pos reg fld = .error e) : e.OfCheck :=
  bind_ofCheck (fun _ => checkField_ofCheck) (fun _ _ => bind_ofCheck (fun _ => checkPosition_ofCheck)
    fun _ _ h => by cases h) h

theorem setSubfieldOperands_ofCheck {c : Config} {pos : Pos} {reg : RegId} {fld : FieldId} {e : ErrCode}
    (h : setSubfieldOperands c pos reg fld = .error e) : e.OfCheck :=
  bind_ofCheck (fun _ => checkField_ofCheck) (fun _ _ => bind_ofCheck (fun _ => checkPosition_ofCheck)
    fun _ _ => bind_ofCheck (fun _ => checkWritable_ofCheck) fun _ _ h => by cases h) h

/-- What a request operation can do in ADDRESSING (43_chain.md R202): enter an error, answer at once, or start the transaction whose
frame has the length its rule gives. It always answers a next state. -/
def RequestOutcome (i : Instr) (s t : State) : Prop :=
  (∃ e : ErrCode, e.OfCheck ∧ t = s.raise e) ∨ s.OnlyResponds t ∨
    ∃ bs, t = s.startTransaction bs ∧ (decodeFields s.req = .ok i → s.transactionLength = some bs.length)

theorem settle_outcome {α : Type} {i : Instr} {s : State} {checks : Except ErrCode α} {go : α → State}
    (he : ∀ e, checks = .error e → e.OfCheck)
    (ho : ∀ a, checks = .ok a → s.OnlyResponds (go a) ∨
      ∃ bs, go a = s.startTransaction bs ∧ (decodeFields s.req = .ok i → s.transactionLength = some bs.length)) :
    ∃ t, settle s checks go = .next t ∧ RequestOutcome i s t := by
  rcases settle_cases (s := s) (checks := checks) (go := go) with ⟨e, hc, hs⟩ | ⟨a, hc, hs⟩
  · exact ⟨_, hs, .inl ⟨e, he e hc, rfl⟩⟩
  · exact ⟨_, hs, .inr (ho a hc)⟩

theorem exec_request (i : Instr) (hi : i.isWire = false) (s : State) : ∃ t, exec i s = .next t ∧ RequestOutcome i s t := by
  cases i with
  | lookup reg => exact settle_outcome (fun _ => checkRegister_ofCheck) fun _ _ => .inl rfl
  | convert reg phys => exact settle_outcome (fun _ => convertOperands_ofCheck) fun _ _ => .inl rfl
  | invert reg val =>
    refine settle_outcome (fun _ => invertOperands_ofCheck) fun a _ => .inl ?_
    cases invert a.1 a.2 <;> rfl
  | encode w v => exact settle_outcome (fun _ => checkWidth_ofCheck) fun _ _ => .inl rfl
  | decode w bytes => exact settle_outcome (fun _ => checkWidth_ofCheck) fun _ _ => .inl rfl
  | setParam pos reg phys =>
    refine settle_outcome (fun _ => setParamOperands_ofCheck) fun a h => .inr ⟨_, rfl, fun hd => ?_⟩
    simp [State.transactionLength, hd, h, Except.toOption]
  | setRaw pos reg val =>
    refine settle_outcome (fun _ => setRawOperands_ofCheck) fun a h => .inr ⟨_, rfl, fun hd => ?_⟩
    simp [State.transactionLength, hd, h, Except.toOption]
  | getParam pos reg =>
    refine settle_outcome (fun _ => getParamOperands_ofCheck) fun a h => .inr ⟨_, rfl, fun hd => ?_⟩
    simp [State.transactionLength, hd, h, Except.toOption]
  | xferFrame pos len bytes =>
    refine settle_outcome (fun _ => xferOperands_ofCheck) fun a h => .inr ⟨_, rfl, fun hd => ?_⟩
    simp [State.transactionLength, hd, h, Except.toOption]
  | setSubfield pos reg fld val =>
    refine settle_outcome (fun _ => setSubfieldOperands_ofCheck) fun a h => .inr ⟨_, rfl, fun hd => ?_⟩
    simp [State.transactionLength, hd, h, Except.toOption]
  | getSubfield pos reg fld =>
    refine settle_outcome (fun _ => getSubfieldOperands_ofCheck) fun a h => .inr ⟨_, rfl, fun hd => ?_⟩
    simp [State.transactionLength, hd, h, Except.toOption]
  | busy pos =>
    simp only [exec, execBusy]
    split
    · next e h => exact ⟨_, rfl, .inl ⟨e, checkPosition_ofCheck h, rfl⟩⟩
    · next h =>
      have hp := checkPosition_eq_ok.1 h
      split
      · exact ⟨_, rfl, .inr (.inl rfl)⟩
      · next hl =>
        refine settle_outcome (fun _ => checkRegister_ofCheck) fun a h => .inr ⟨_, rfl, fun hd => ?_⟩
        simp [State.transactionLength, hd, h, Except.toOption, hl, Nat.not_le.2 hp]
  | wireNop | wireCmdSet _ | wireCmdGet _ => cases hi

theorem exec_wire {i : Instr} {b : Byte} {s : State} (h : encode s.cfg.wire i = .wireByte b) : exec i s = exchange b s := by
  cases i <;> simp only [encode, Encoded.wireByte.injEq, reduceCtorEq] at h <;> subst h <;> rfl

theorem toOption_map_eq_some {α β : Type} {x : Except ErrCode α} {f : α → β} {b : β} :
    x.toOption.map f = some b ↔ ∃ a, x = .ok a ∧ f a = b := by
  cases x <;> simp [Except.toOption]

/-- A decoded SET_SUBFIELD has its operation code (30_encoding.md R82). -/
theorem decodeFields_setSubfield {r : Request} {pos : Pos} {reg : RegId} {fld : FieldId} {val : Word32}
    (h : decodeFields r = .ok (.setSubfield pos reg fld val)) : r.op = 0xA#4 := by
  unfold decodeFields at h
  split at h
  · cases h
  · split at h <;> cases h; assumption

/-- A request that runs a transaction has what its completion part needs (43_chain.md R202). -/
theorem transactionLength_lookup {s : State} {n : Nat} (h : s.transactionLength = some n) :
    match decodeFields s.req with
    | .ok (.setParam _ reg _) | .ok (.setRaw _ reg _) | .ok (.getParam _ reg) => ∃ e, s.cfg.lookup reg = some e
    | .ok (.setSubfield _ reg fld _) | .ok (.getSubfield _ reg fld) =>
      ∃ e f, s.cfg.lookup reg = some e ∧ s.cfg.subfield reg fld = some f ∧ n = 1 + nb e.width
    | .ok (.busy _) => ∃ e, s.cfg.lookup s.cfg.statusReg = some e
    | .ok (.xferFrame _ _ _) => True
    | _ => False := by
  unfold State.transactionLength at h
  split at h <;> rename_i hd <;> simp only [hd]
  · obtain ⟨⟨e, r⟩, h, _⟩ := toOption_map_eq_some.1 h
    exact ⟨e, (checkRegister_eq_ok.1 (setParamOperands_eq_ok.1 h).1).1⟩
  · obtain ⟨⟨e, r⟩, h, _⟩ := toOption_map_eq_some.1 h
    exact ⟨e, (checkRegister_eq_ok.1 (setRawOperands_eq_ok.1 h).1).1⟩
  · obtain ⟨e, h, _⟩ := toOption_map_eq_some.1 h
    exact ⟨e, (checkRegister_eq_ok.1 (getParamOperands_eq_ok.1 h).1).1⟩
  · obtain ⟨⟨e, f⟩, h, hn⟩ := toOption_map_eq_some.1 h
    have := checkField_eq_ok.1 (setSubfieldOperands_eq_ok.1 h).1
    exact ⟨e, f, this.1, this.2.1, hn.symm⟩
  · obtain ⟨⟨e, f⟩, h, hn⟩ := toOption_map_eq_some.1 h
    have := checkField_eq_ok.1 (getSubfieldOperands_eq_ok.1 h).1
    exact ⟨e, f, this.1, this.2.1, hn.symm⟩
  · split at h
    · cases h
    · obtain ⟨e, h, _⟩ := toOption_map_eq_some.1 h
      exact ⟨e, (checkRegister_eq_ok.1 h).1⟩
  all_goals cases h

/-- What finish() can do (43_chain.md R209): respond, or start SET_SUBFIELD's write transaction, which is as long as the read, or,
for a request that runs no transaction, fault. -/
theorem finish_cases (s : State) :
    (∃ t, finish s = .next t ∧ s.OnlyResponds t) ∨
      (∃ bs, finish s = .next (({ s with phase := 1 } : State).startTransaction bs) ∧ s.phase = 0 ∧ s.req.op = 0xA#4
        ∧ ∀ n, s.transactionLength = some n → bs.length = n) ∨
      (finish s = .fault .noTransaction ∧ ∀ n, s.transactionLength ≠ some n) := by
  have key := fun n => transactionLength_lookup (s := s) (n := n)
  unfold finish
  split <;> rename_i hd <;> simp only [hd] at key
  · unfold finishSetParam
    cases hl : s.cfg.lookup _ with
    | some e => exact .inl ⟨_, rfl, rfl⟩
    | none => exact .inr (.inr ⟨rfl, fun n h => by simpa [hl] using key n h⟩)
  · unfold finishSetRaw
    cases hl : s.cfg.lookup _ with
    | some e => exact .inl ⟨_, rfl, rfl⟩
    | none => exact .inr (.inr ⟨rfl, fun n h => by simpa [hl] using key n h⟩)
  · unfold finishGetParam
    cases hl : s.cfg.lookup _ with
    | some e => exact .inl ⟨_, rfl, rfl⟩
    | none => exact .inr (.inr ⟨rfl, fun n h => by simpa [hl] using key n h⟩)
  · exact .inl ⟨_, rfl, rfl⟩
  · unfold finishSetSubfield
    split
    · next e f he hf =>
      split
      · next hp =>
        refine .inr (.inl ⟨_, rfl, hp, decodeFields_setSubfield hd, fun n h => ?_⟩)
        obtain ⟨e', f', he', _, rfl⟩ := key n h
        rw [he] at he'
        cases he'
        exact setFrame_length ..
      · exact .inl ⟨_, rfl, rfl⟩
    · next hn =>
      refine .inr (.inr ⟨rfl, fun n h => ?_⟩)
      obtain ⟨e', f', he', hf', _⟩ := key n h
      exact hn e' f' he' hf'
  · unfold finishGetSubfield
    split
    · exact .inl ⟨_, rfl, rfl⟩
    · next hn =>
      refine .inr (.inr ⟨rfl, fun n h => ?_⟩)
      obtain ⟨e', f', he', hf', _⟩ := key n h
      exact hn e' f' he' hf'
  · unfold finishBusy
    cases hl : s.cfg.lookup _ with
    | some e => exact .inl ⟨_, rfl, rfl⟩
    | none => exact .inr (.inr ⟨rfl, fun n h => by simpa [hl] using key n h⟩)
  all_goals exact .inr (.inr ⟨rfl, fun n h => key n h⟩)

/-- What one exchange can do (43_chain.md R205). -/
theorem exchange_cases (b : Byte) (s : State) :
    (s.inp.bus.ok = false ∧ exchange b s = .next (State.busFail { s with wire := s.wire ++ [.xfer b none] })) ∨
      (s.inp.bus.ok = true ∧ s.t + 1 < s.cfg.n ∧ exchange b s = .next { s.capture b with t := s.t + 1 }) ∨
      (s.inp.bus.ok = true ∧ s.cfg.n ≤ s.t + 1 ∧ s.j + 1 < s.flen
        ∧ exchange b s = .next (State.betweenCycles { s.capture b with t := 0, j := s.j + 1 })) ∨
      (s.LastExchange ∧ exchange b s = finish (s.afterLast b)) := by
  by_cases hok : s.inp.bus.ok = true
  · by_cases ht : s.t + 1 < s.cfg.n
    · exact .inr (.inl ⟨hok, ht, by simp [exchange, hok, ht]⟩)
    · by_cases hj : s.j + 1 < s.flen
      · exact .inr (.inr (.inl ⟨hok, Nat.not_lt.1 ht, hj, by simp [exchange, hok, ht, hj]⟩))
      · refine .inr (.inr (.inr ⟨⟨hok, Nat.not_lt.1 ht, Nat.not_lt.1 hj⟩, ?_⟩))
        simp [exchange, hok, ht, hj, State.deassertCs, State.afterLast, State.capture]
  · exact .inl ⟨by simpa using hok, by simp [exchange, hok]⟩

/-- A SHIFT step exchanges the current slot's byte, whether or not the byte is one of the wire codes (43_chain.md R205). -/
theorem shiftingStep_eq (s : State) : shiftingStep s = exchange s.slotByte s := by
  unfold shiftingStep
  split
  · next i h =>
    refine exec_wire ?_
    unfold decodeWire at h
    split at h
    · next hb => cases h; simp [encode, hb]
    · split at h
      · next id hf => cases h; simpa [encode] using List.find?_some hf
      · split at h
        · next id hf => cases h; simpa [encode] using List.find?_some hf
        · cases h
  · rfl

/-- Every step (00_scope.md R12), by what happens in it. -/
theorem step_cases (s : State) :
    (s.cfg.wellFormed = false ∧ step s = .refused .illFormedConfiguration) ∨
      (s.cfg.wellFormed = true ∧ ∃ r, s.badRead = some r ∧ step s = .fault (.unspecifiedResponse r)) ∨
      (s.cfg.wellFormed = true ∧ s.badRead = none ∧ s.inp.rst = true ∧ step s = .next s.blockReset.nextInputs) ∨
      (s.Ready ∧ step s = advance (fsmStep s)) := by
  unfold step blockStep
  cases hw : s.cfg.wellFormed with
  | false => exact .inl ⟨rfl, rfl⟩
  | true =>
    cases hr : s.badRead with
    | some r => exact .inr (.inl ⟨rfl, r, rfl, rfl⟩)
    | none =>
      cases hrst : s.inp.rst with
      | true => exact .inr (.inr (.inl ⟨rfl, rfl, rfl, rfl⟩))
      | false => exact .inr (.inr (.inr ⟨⟨hw, hrst, hr⟩, rfl⟩))

/-- A step of a state that is ready (00_scope.md R12). -/
theorem step_of_ready {s : State} (h : s.Ready) : step s = advance (fsmStep s) := by
  simp [step, blockStep, h.wellFormed, h.running, h.readsHold]

end Sys2Proof.Machine
end

