-- ==== Sys2Proof/Laws/PerInstr.lean ====
section
/-! SUPPORT. Facts stated for all instructions and proved one constructor at a time: the fixed fields of spec/opcode_table.json in
the words of each instruction. -/

namespace Sys2Proof.Laws.OpcodeField

/-- The value of the row's fixed field: `OP` for a request, the bits of the row's mask for a wire byte. -/
def code : Instr → Nat
  | .lookup _ => 0x1
  | .convert _ _ => 0x2
  | .invert _ _ => 0x3
  | .encode _ _ => 0x4
  | .decode _ _ => 0x5
  | .setParam _ _ _ => 0x6
  | .setRaw _ _ _ => 0x7
  | .getParam _ _ => 0x8
  | .xferFrame _ _ _ => 0x9
  | .setSubfield _ _ _ _ => 0xA
  | .getSubfield _ _ _ => 0xB
  | .busy _ => 0xC
  | .wireNop => 0x00
  | .wireCmdSet _ => 0x0
  | .wireCmdGet _ => 0x1

/-- The words of `i` carry the fixed fields of its row: `OP` in bits 3 to 0 and 0 in bits 31 to 26 of a request, all 8 bits of
WIRE_NOP, bits 7 to 5 of the two command bytes. -/
def Statement (i : Instr) : Prop :=
  match encode WireCodes.table i with
  | .request req _ => (req.extractLsb' 0 4).toNat = code i ∧ req.extractLsb' 26 6 = 0#6
  | .wireByte b => if i = .wireNop then b.toNat = code i else (b.extractLsb' 5 3).toNat = code i

theorem requestWord_fixed (op : BitVec 4) (reg : RegId) (fld : FieldId) (wl : BitVec 5) (pos : Pos) (val : Word32) :
    (requestWord op reg fld wl pos val).extractLsb' 0 4 = op ∧ (requestWord op reg fld wl pos val).extractLsb' 26 6 = 0#6 :=
  have h := ofWords_requestWord op reg fld wl pos val 0
  ⟨congrArg Request.op h, congrArg Request.rsv h⟩

theorem of_requestWord {op : BitVec 4} {reg : RegId} {fld : FieldId} {wl : BitVec 5} {pos : Pos} {val : Word32} {n : Nat}
    (h : op.toNat = n) : ((requestWord op reg fld wl pos val).extractLsb' 0 4).toNat = n ∧
      (requestWord op reg fld wl pos val).extractLsb' 26 6 = 0#6 :=
  have f := requestWord_fixed op reg fld wl pos val
  ⟨by rw [f.1, h], f.2⟩

theorem lookup (reg : RegId) : Statement (.lookup reg) := of_requestWord rfl

theorem convert (reg : RegId) (phys : Phys) : Statement (.convert reg phys) := of_requestWord rfl

theorem invert (reg : RegId) (val : Word32) : Statement (.invert reg val) := of_requestWord rfl

theorem encode (w : BitVec 5) (v : Word32) : Statement (.encode w v) := of_requestWord rfl

theorem decode (w : BitVec 5) (bytes : Word32) : Statement (.decode w bytes) := of_requestWord rfl

theorem setParam (pos : Pos) (reg : RegId) (phys : Phys) : Statement (.setParam pos reg phys) := of_requestWord rfl

theorem setRaw (pos : Pos) (reg : RegId) (val : Word32) : Statement (.setRaw pos reg val) := of_requestWord rfl

theorem getParam (pos : Pos) (reg : RegId) : Statement (.getParam pos reg) := of_requestWord rfl

theorem xferFrame (pos : Pos) (len : BitVec 5) (bytes : Word32) : Statement (.xferFrame pos len bytes) := of_requestWord rfl

theorem setSubfield (pos : Pos) (reg : RegId) (fld : FieldId) (val : Word32) : Statement (.setSubfield pos reg fld val) :=
  of_requestWord rfl

theorem getSubfield (pos : Pos) (reg : RegId) (fld : FieldId) : Statement (.getSubfield pos reg fld) := of_requestWord rfl

theorem busy (pos : Pos) : Statement (.busy pos) := of_requestWord rfl

theorem wireNop : Statement .wireNop := by
  simp only [Statement, Sys2Proof.encode, if_true]
  decide

theorem wireCmdSet (id : RegId) : Statement (.wireCmdSet id) := by
  simp only [Statement, Sys2Proof.encode, reduceCtorEq, if_false, code]
  revert id
  decide

theorem wireCmdGet (id : RegId) : Statement (.wireCmdGet id) := by
  simp only [Statement, Sys2Proof.encode, reduceCtorEq, if_false, code]
  revert id
  decide

end Sys2Proof.Laws.OpcodeField
end

