-- ==== Sys2Proof/Laws/Run.lean ====
section
/-! SUPPORT. Several steps in a row: runs taken apart, the inputs that come, the slots of a byte-cycle (43_chain.md R206) and the
bounds of a transaction (20_memory.md R66). -/

namespace Sys2Proof.Machine

theorem run_cons {k : Nat} {s u : State} (h : step s = .next u) : run (k + 1) s = run k u := by
  rw [run, h]

theorem run_snoc {k : Nat} {s u v : State} (h : run k s = .next u) (h' : step u = .next v) : run (k + 1) s = .next v := by
  induction k generalizing s with
  | zero =>
    cases h
    rw [run_cons h', run]
  | succ k ih =>
    rw [run] at h ⊢
    cases hs : step s with
    | next t =>
      rw [hs] at h
      exact ih h
    | fault r =>
      rw [hs] at h
      cases h
    | refused r =>
      rw [hs] at h
      cases h

/-- After a step the script's inputs come, while it has any. -/
theorem nextInputs_coming {s : State} (h : s.script ≠ []) : s.nextInputs.coming = s.script := by
  unfold State.nextInputs State.coming
  cases hs : s.script with
  | nil => exact absurd hs h
  | cons x rest => rfl

/-- Two wire indexes of one byte-cycle carry different positions (43_chain.md R206). -/
theorem slotpos_inj {c : Config} {t t' : Nat} (h : t < c.n) (h' : t' < c.n) (e : c.slotpos t = c.slotpos t') : t = t' := by
  unfold Config.slotpos at e
  split at e <;> omega

/-- Every position has its wire index (43_chain.md R206). -/
theorem slotpos_slotpos {c : Config} {k : Nat} (h : k < c.n) : c.slotpos k < c.n ∧ c.slotpos (c.slotpos k) = k := by
  unfold Config.slotpos
  cases c.slotOrder <;> constructor <;> dsimp only <;> omega

/-- An echo buffer's byte after a capture (43_chain.md R207). -/
theorem getD_setIfInBounds (v : Vector Byte 4) (j : Nat) (x : Byte) (c : Nat) :
    (v.setIfInBounds j x).getD c 0 = if j = c ∧ j < 4 then x else v.getD c 0 := by
  simp only [Vector.getD, Array.getD_eq_getD_getElem?, Vector.toArray_setIfInBounds, Array.getElem?_setIfInBounds,
    Vector.size_toArray]
  by_cases h : j = c
  · by_cases hc : c < 4 <;> simp [h, hc]
  · simp [h]

/-- A transaction has 1 to 4 byte-cycles, and its target is in the chain (20_memory.md R62, R66). -/
theorem transactionLength_bounds {s : State} {n : Nat} (h : s.transactionLength = some n) :
    1 ≤ n ∧ n ≤ 4 ∧ s.req.pos.toNat < s.cfg.n := by
  have hp : ∀ {i}, decodeFields s.req = .ok i → ∀ p, namedPosition i = some p → p = s.req.pos := by
    intro i hi p hp
    unfold decodeFields at hi
    split at hi
    · cases hi
    · split at hi <;> cases hi <;> simp [namedPosition] at hp <;> exact hp.symm
  have hr : ∀ {reg e}, checkRegister s.cfg reg = .ok e → nb e.width ≤ 3 := fun h =>
    nb_le_three ((widthValid_iff _).1 (checkRegister_eq_ok.1 h).2).2
  have hf : ∀ {reg fld ef}, checkField s.cfg reg fld = .ok ef → nb ef.1.width ≤ 3 := fun h =>
    nb_le_three ((widthValid_iff _).1 (checkField_eq_ok.1 h).2.2.1).2
  unfold State.transactionLength at h
  split at h <;> (try rename_i hd)
  · obtain ⟨⟨_, _⟩, h1, rfl⟩ := toOption_map_eq_some.1 h
    have := hr (setParamOperands_eq_ok.1 h1).1
    exact ⟨by omega, by simp only; omega, hp hd _ rfl ▸ (setParamOperands_eq_ok.1 h1).2.1⟩
  · obtain ⟨⟨_, _⟩, h1, rfl⟩ := toOption_map_eq_some.1 h
    have := hr (setRawOperands_eq_ok.1 h1).1
    exact ⟨by omega, by simp only; omega, hp hd _ rfl ▸ (setRawOperands_eq_ok.1 h1).2.1⟩
  · obtain ⟨_, h1, rfl⟩ := toOption_map_eq_some.1 h
    have := hr (getParamOperands_eq_ok.1 h1).1
    exact ⟨by omega, by omega, hp hd _ rfl ▸ (getParamOperands_eq_ok.1 h1).2⟩
  · obtain ⟨_, h1, rfl⟩ := toOption_map_eq_some.1 h
    have := xferOperands_eq_ok.1 h1
    rw [xferOperands_length h1]
    exact ⟨this.1, this.2.1, hp hd _ rfl ▸ this.2.2.1⟩
  · obtain ⟨⟨_, _⟩, h1, rfl⟩ := toOption_map_eq_some.1 h
    have := hf (setSubfieldOperands_eq_ok.1 h1).1
    exact ⟨by omega, by simp only at this ⊢; omega, hp hd _ rfl ▸ (setSubfieldOperands_eq_ok.1 h1).2.1⟩
  · obtain ⟨⟨_, _⟩, h1, rfl⟩ := toOption_map_eq_some.1 h
    have := hf (getSubfieldOperands_eq_ok.1 h1).1
    exact ⟨by omega, by simp only at this ⊢; omega, hp hd _ rfl ▸ (getSubfieldOperands_eq_ok.1 h1).2⟩
  · split at h
    · cases h
    · next hn =>
      obtain ⟨_, h1, rfl⟩ := toOption_map_eq_some.1 h
      have := hr h1
      exact ⟨by omega, by omega, hp hd _ rfl ▸ by omega⟩
  all_goals cases h

end Sys2Proof.Machine
end

