-- ==== Sys2Proof/Tests/Slice0.lean ====
section
/-! SUPPORT. Tests on fixed values (95_test_vectors.md gives each expected result; its number is in the test's comment), the smoke
tests of the well-formedness checks, and a witness for every obligation that has hypotheses. -/

namespace Sys2Proof.Tests

open Machine

/- One theorem after another: a thread for each kernel evaluation is more threads than a memory limit may allow. -/
set_option Elab.async false

/-! ### Helpers -/

/-- What a next state holds; nothing for a fault or a refusal. -/
def got {α : Type} (o : Outcome) (f : State → α) : Option α :=
  match o with
  | .next s => some (f s)
  | .fault _ | .refused _ => none

/-- The default configuration with a chain of `n` devices. -/
def chain (n : Nat) : Config := { Config.default with n := n }

/-- A chain of three whose registry is one entry. -/
def only (e : Entry) : Config := { chain 3 with registry := [e], subfields := [] }

/-- ACC of the vectors C12 to C16: `K = 1/8`, `MAXV = 4095`, threshold 30000, sentinel 4095. -/
def acc : Entry := ⟨0x05, "ACC", 12, .rw, .motion (mkRat 1 8) 4095 (some ⟨30000, 4095⟩)⟩

/-- The linear register of the vectors C17 to C23: `K = 1/375`, `B = -1`, width 4. -/
def lin : Entry := ⟨0x11, "LIN", 4, .rw, .linear (mkRat 1 375) (-1)⟩

/-- A request latched in ADDRESSING. -/
def addressed (c : Config) (req phys : Word64) : State := State.placeRequest req phys { State.reset with cfg := c }

/-- A transaction in flight: the request, the frame, what has been echoed, the counters, and the reply to the next exchange. -/
def inFlight (c : Config) (req phys : Word64) (frame echo : List Byte) (j t : Nat) (ok : Bool) (rx : Byte) : State :=
  { addressed c req phys with
    frame := State.overlay (Vector.replicate 4 0) frame, flen := frame.length, echo := State.overlay (Vector.replicate 4 0) echo
    j := j, t := t, csAsserted := true, fsm := .shifting, inp := { quietInputs with bus := ⟨ok, rx⟩ } }

/-- A response held for requester 0. -/
def answered (c : Config) (take : List Nat) : State :=
  { State.respondOk (addressed c 0x71 0) with inp := { quietInputs with take := take } }

/-! ### Well-formedness -/

/-- Wire codes from two functions of the id, with the no-operation byte 0. -/
def codes (set get : Nat → Nat) : WireCodes where
  nop    := 0
  setCmd := Vector.ofFn fun id => BitVec.ofNat 8 (set id.val)
  getCmd := Vector.ofFn fun id => BitVec.ofNat 8 (get id.val)

theorem test_set_command_equal_to_nop_refused : Instr.wellFormed (.wireCmdSet 0) = false := by decide
theorem test_set_commands_equal_refused : Instr.wellFormedFor (codes (fun _ => 1) (· + 32)) (.wireCmdSet 5) = false := by decide
theorem test_get_command_equal_to_nop_refused : Instr.wellFormedFor (codes (· + 1) fun _ => 0) (.wireCmdGet 5) = false := by decide
theorem test_get_command_equal_to_set_refused : Instr.wellFormedFor (codes (· + 1) (· + 1)) (.wireCmdGet 5) = false := by decide
theorem test_get_commands_equal_refused : Instr.wellFormedFor (codes (· + 1) fun _ => 128) (.wireCmdGet 5) = false := by decide
theorem test_commands_accepted :
    Instr.wellFormed (.wireCmdSet 0x07) = true ∧ Instr.wellFormed (.wireCmdSet 0x1F) = true ∧
      Instr.wellFormed (.wireCmdGet 0x00) = true ∧ Instr.wellFormed (.wireCmdGet 0x1F) = true := by decide

/-- 10_state.md R40 item 1, at both ends. -/
theorem test_chain_length :
    (chain 0).wellFormed = false ∧ (chain 1).wellFormed = true ∧ (chain 256).wellFormed = true ∧ (chain 257).wellFormed = false := by
  decide +kernel
/-- R40 item 2. -/
theorem test_repeated_id_refused : ({ only acc with registry := [acc, acc], statusReg := 5 }).wellFormed = false := by decide +kernel
/-- R40 item 3, at both ends. -/
theorem test_width_range :
    (Entry.wellFormed ⟨1, "", 0, .rw, .identity⟩) = false ∧ (Entry.wellFormed ⟨1, "", 1, .rw, .identity⟩) = true ∧
      (Entry.wellFormed ⟨1, "", 22, .rw, .identity⟩) = true ∧ (Entry.wellFormed ⟨1, "", 23, .rw, .identity⟩) = false := by decide
/-- R40 item 4. -/
theorem test_descriptors_refused :
    ConvDescriptor.wellFormed 4 (.linear 0 0) = false ∧ ConvDescriptor.wellFormed 4 (.motion 0 15 none) = false ∧
      ConvDescriptor.wellFormed 4 (.motion 1 16 none) = false ∧
      ConvDescriptor.wellFormed 4 (.motion 1 15 (some ⟨0, 16⟩)) = false ∧
      ConvDescriptor.wellFormed 4 (.motion 1 15 (some ⟨0, 15⟩)) = true := by decide +kernel
/-- R40 item 5. -/
theorem test_subfields_refused :
    Config.subfieldFits (chain 3) ⟨0x00, 0, "", 0, 1⟩ = false ∧ Config.subfieldFits (chain 3) ⟨0x16, 0, "", 0, 0⟩ = false ∧
      Config.subfieldFits (chain 3) ⟨0x16, 0, "", 6, 3⟩ = false ∧ Config.subfieldFits (chain 3) ⟨0x16, 0, "", 5, 3⟩ = true := by
  decide +kernel
/-- R40 item 6. -/
theorem test_status_register_refused :
    ({ chain 3 with statusReg := 0 }).wellFormed = false ∧
      ({ chain 3 with statusReg := 0, busyLinePresent := [true, true, true] }).wellFormed = true := by decide +kernel
/-- R40 item 7: with the default wire bytes no register may have id 0. -/
theorem test_register_zero_refused :
    ({ chain 3 with registry := ⟨0, "", 8, .rw, .identity⟩ :: Defaults.registry }).wellFormed = false := by decide +kernel
/-- 00_scope.md R5, `Q`. -/
theorem test_no_requester_refused : ({ chain 3 with q := 0 }).wellFormed = false := by decide +kernel

/-! ### Words written out from 30_encoding.md R80 to R86 -/

theorem test_decode_lookup : decodeRequest 0x0000000000000191 0 = .ok (.lookup 0x19) := by decide
theorem test_decode_convert : decodeRequest 0x0000000000000072 0x00000043FFFFFE0C = .ok (.convert 0x07 ⟨-500, 67⟩) := by decide
theorem test_decode_invert : decodeRequest 0x00000FFF00000053 0 = .ok (.invert 0x05 4095) := by decide
theorem test_decode_encode : decodeRequest 0xFFFFFFFF0002C004 0 = .ok (.encode 22 (-1)) := by decide
theorem test_decode_decode : decodeRequest 0xC00001000002C005 0 = .ok (.decode 22 0xC0000100) := by decide
theorem test_decode_setParam : decodeRequest 0x0000000000040076 0x00000001000003E8 = .ok (.setParam 1 0x07 ⟨1000, 1⟩) := by decide
theorem test_decode_setRaw : decodeRequest 0xFFFFFFFF00040017 0 = .ok (.setRaw 1 0x01 (-1)) := by decide
theorem test_decode_getParam : decodeRequest 0x00000000000C0078 0 = .ok (.getParam 3 0x07) := by decide
theorem test_decode_xferFrame : decodeRequest 0x5000123400008009 0 = .ok (.xferFrame 0 4 0x50001234) := by decide
theorem test_decode_setSubfield : decodeRequest 0x0000000500000B6A 0 = .ok (.setSubfield 0 0x16 5 5) := by decide
theorem test_decode_getSubfield : decodeRequest 0x0000000000000B8B 0 = .ok (.getSubfield 0 0x18 5) := by decide
theorem test_decode_busy : decodeRequest 0x000000000008000C 0 = .ok (.busy 2) := by decide
theorem test_decode_wire :
    decodeWire WireCodes.table 0x00 = .ok .wireNop ∧ decodeWire WireCodes.table 0x16 = .ok (.wireCmdSet 0x16) ∧
      decodeWire WireCodes.table 0x36 = .ok (.wireCmdGet 0x16) ∧ decodeWire WireCodes.table 0x40 = .error .dataByte := by decide
/-- E2, E3, E4. -/
theorem test_decode_illegal :
    decodeRequest 0x000000000000000D 0 = .error .reservedOperation ∧ decodeRequest 0x0000000004000071 0 = .error .reservedBitsSet ∧
      decodeRequest 0x000000000024000F 0 = .error .reservedOperation := by decide
theorem test_table_words :
    decodeTableWord 64 0x71 = some (.lookup 0x07) ∧ decodeTableWord 8 0x27 = some (.wireCmdGet 0x07) ∧
      decodeTableWord 64 0xD = none ∧ decodeTableWord 8 0x40 = none := by decide
/-- R5 and F4: a line and a pseudo-operation of 30_encoding.md R93, R94. -/
theorem test_assemble :
    Assembler.assemble Config.default ⟨"lookup", [.int 0x1A]⟩ = some (.lookup 0x1A) ∧
      Assembler.assemble Config.default ⟨"setstepmode", [.int 0, .int 0x0D]⟩ = some (.setSubfield 0 0x16 0 0x0D) ∧
      Assembler.assemble Config.default ⟨"cmd", [.int 2, .int 0xB8]⟩ = some (.xferFrame 2 1 0xB8000000) := by decide

/-- C6, P1 and 30_encoding.md R93's `0.067`, from their characters. -/
theorem test_assemble_characters :
    Assembler.assemble Config.default (Assembler.lineOf
        ['c', 'o', 'n', 'v', 'e', 'r', 't', ' ', '7', ',', ' ', '-', '5', '0', '0', '/', '6', '7']) = some (.convert 0x07 ⟨-500, 67⟩) ∧
      Assembler.assemble Config.default (Assembler.lineOf
        ['s', 'e', 't', 'r', ' ', '1', ',', ' ', 'M', 'A', 'R', 'K', ',', ' ', '0', 'x', '1', 'f', ' ', ';', 'x'])
          = some (.setRaw 1 0x03 0x1F) ∧
      Assembler.operandOf ['0', '.', '0', '6', '7'] = .decimal 67 3 := by decide +kernel
/-- Log entry 20: a shadowed entry's name is none, and of two entries of one name the first is meant. -/
theorem test_assemble_names :
    let c : Config := { only lin with
      subfields := [⟨0x11, 0, "A", 0, 1⟩, ⟨0x11, 0, "B", 1, 1⟩, ⟨0x11, 2, "C", 2, 1⟩, ⟨0x11, 3, "C", 3, 1⟩] }
    Assembler.field c 0x11 (.name "A") = some 0 ∧ Assembler.field c 0x11 (.name "B") = none ∧
      Assembler.field c 0x11 (.name "C") = some 2 ∧ Assembler.register c (.name "LIN") = some 0x11 := by decide +kernel

/-- Wire codes in which the get command of id 1 is the set command of id 0x11. -/
def sharedCodes : WireCodes := codes (fun id => if id = 0 then 0x80 else id) fun id => id + 0x10

/-- 30_encoding.md R90: STATUS is 16 bits wide; an id that is not registered does not hide a get frame of register 1 (22 bits); and a
byte of two registered ids tells a length only when their widths give the same. -/
theorem test_frame_length :
    (frameLengthOf Config.default 0x39 = some 3 ∧ frameLengthOf Config.default 0x00 = none) ∧
      frameLengthOf { only ⟨0x01, "ABS_POS", 22, .rw, .identity⟩ with wire := sharedCodes } 0x11 = some 4 ∧
      frameLengths { only lin with registry := [lin, ⟨0x01, "ABS_POS", 22, .rw, .identity⟩], wire := sharedCodes } 0x11 = [4, 2] ∧
      frameLengthOf { only lin with registry := [lin, ⟨0x01, "ABS_POS", 22, .rw, .identity⟩], wire := sharedCodes } 0x11 = none := by
  decide +kernel

/-! ### One step each -/

/-- R1 and R4. -/
theorem test_lookup :
    got (step (addressed (chain 3) 0x71 0)) (fun s => (s.rspStatus, s.rspWidth, s.rspAccess)) = some (0, 10, 0) ∧
      got (step (addressed (chain 3) 0x01 0)) (·.rspStatus) = some 1 := by decide +kernel
/-- C2 (a tie), C9 (saturation), C10 (DEN = 0). -/
theorem test_convert_motion :
    got (step (addressed (chain 3) 0x72 0x00000001000001F4)) (·.rspInt) = some 34 ∧
      got (step (addressed (chain 3) 0x72 0x0000000100004E20)) (·.rspInt) = some 1023 ∧
      got (step (addressed (chain 3) 0x72 0x0000000000000001)) (·.rspStatus) = some 4 := by decide +kernel
/-- C12, C13 (the sentinel), C18 and C20 (linear), C25 and C28 (identity). -/
theorem test_convert_others :
    got (execConvert 0x05 ⟨30000, 1⟩ (addressed (only acc) 0 0)) (·.rspInt) = some 3750 ∧
      got (execConvert 0x05 ⟨30001, 1⟩ (addressed (only acc) 0 0)) (·.rspInt) = some 4095 ∧
      got (execConvert 0x11 ⟨0, 1⟩ (addressed (only lin) 0 0)) (·.rspInt) = some 0 ∧
      got (execConvert 0x11 ⟨1125, 2⟩ (addressed (only lin) 0 0)) (·.rspInt) = some 1 ∧
      got (execConvert 0x02 ⟨600, 2⟩ (addressed (chain 3) 0 0)) (·.rspInt) = some 300 ∧
      got (execConvert 0x02 ⟨5, 2⟩ (addressed (chain 3) 0 0)) (·.rspStatus) = some 4 := by decide +kernel
/-- C32 and C34. -/
theorem test_invert :
    got (step (addressed (chain 3) 0x0000002200000073 0)) (fun s => (s.rspPhys, s.rspUnlimited)) = some (mkRat 34000 67, false) ∧
      got (step (addressed (chain 3) 0x0000040000000073 0)) (·.rspStatus) = some 4 := by decide +kernel
/-- C15 (the sentinel read back) and C21. -/
theorem test_invert_others :
    got (execInvert 0x05 4095 (addressed (only acc) 0 0)) (·.rspUnlimited) = some true ∧
      got (execInvert 0x11 7 (addressed (only lin) 0 0)) (·.rspPhys) = some 3000 := by decide +kernel
/-- K7 and K13. -/
theorem test_encode :
    got (step (addressed (chain 3) 0x000001FF00012004 0)) (fun s => (s.rspLen, s.rspBytes.toList.take 2)) = some (2, [0x01, 0xFF]) ∧
      got (step (addressed (chain 3) 0xFFFFFFFE00014004 0)) (fun s => s.rspBytes.toList.take 2) = some [0x03, 0xFE] := by
  decide +kernel
/-- K15 and K17. -/
theorem test_encode_width :
    got (step (addressed (chain 3) 0x0000000100000004 0)) (·.rspStatus) = some 2 ∧
      got (step (addressed (chain 3) 0x000000010003E004 0)) (·.rspStatus) = some 2 := by decide +kernel
/-- K19 and K22. -/
theorem test_decode :
    got (step (addressed (chain 3) 0xFFFF000000014005 0)) (·.rspInt) = some 1023 ∧
      got (step (addressed (chain 3) 0xC00001000002C005 0)) (·.rspInt) = some 1 := by decide +kernel
/-- T5 and E11. -/
theorem test_setParam :
    got (step (addressed (chain 3) 0x0000000000040076 0x00000001000003E8)) (fun s => s.frame.toList.take s.flen)
        = some [0x07, 0x00, 0x43] ∧
      got (step (addressed (chain 3) 0x0000000000000046 0x1)) (·.rspStatus) = some 6 := by decide +kernel
/-- T11 and E7. -/
theorem test_setRaw :
    got (step (addressed (chain 3) 0x000007FF00000077 0)) (fun s => s.frame.toList.take s.flen) = some [0x07, 0x03, 0xFF] ∧
      got (step (addressed (chain 3) 0x0000000000140197 0)) (·.rspStatus) = some 3 := by decide +kernel
/-- T10's response. -/
theorem test_setRaw_response :
    got (step (inFlight (chain 2) 0xFFFFFFFF00040017 0 [0x01, 0x3F, 0xFF, 0xFF] [] 3 1 true 0)) (fun s => (s.fsm, s.rspInt))
      = some (.complete, 0x3FFFFF) := by decide +kernel
/-- T7's frame and E5. -/
theorem test_getParam :
    got (step (addressed (chain 2) 0x0000000000000198 0)) (fun s => (s.frame.toList.take s.flen, s.wire))
        = some ([0x39, 0x00, 0x00], [.csAssert]) ∧
      got (step (addressed (chain 3) 0x00000000000C0008 0)) (·.rspStatus) = some 1 := by decide +kernel
/-- T9's response: the bits beyond the width are masked off. -/
theorem test_getParam_response :
    got (step (inFlight (chain 1) 0x0000000000000018 0 [0x21, 0, 0, 0] [0x00, 0xFF, 0xFF] 3 0 true 0xFE))
      (fun s => (s.rspInt, s.rspLen, s.rspBytes.toList)) = some (0x3FFFFE, 4, [0x00, 0xFF, 0xFF, 0xFE]) := by decide +kernel
/-- T13's frame, E13 and E14. -/
theorem test_xferFrame :
    got (step (addressed (chain 1) 0x5000123400008009 0)) (fun s => s.frame.toList.take s.flen) = some [0x50, 0x00, 0x12, 0x34] ∧
      got (step (addressed (chain 3) 0x00000000001C0009 0)) (·.rspStatus) = some 9 ∧
      got (step (addressed (chain 3) 0x000000000000A009 0)) (·.rspStatus) = some 9 := by decide +kernel
/-- T12's response: the byte of the third exchange, and nothing of the first two. -/
theorem test_xferFrame_response :
    got (step (inFlight (chain 3) 0xB800000000082009 0 [0xB8] [] 0 2 true 0xCC)) (fun s => (s.rspLen, s.rspBytes.toList.take 1))
      = some (1, [0xCC]) := by decide +kernel
/-- F4 after the read: the write transaction's frame; F7. -/
theorem test_setSubfield :
    got (step (inFlight (chain 1) 0x0000000D0000016A 0 [0x36, 0x00] [0x00] 1 0 true 0x97))
        (fun s => (s.fsm, s.phase, s.frame.toList.take s.flen)) = some (.shifting, 1, [0x16, 0x95]) ∧
      got (step (addressed (chain 1) 0x000000000000019A 0)) (·.rspStatus) = some 7 := by decide +kernel
/-- F4 after the write. -/
theorem test_setSubfield_response :
    got (step { inFlight (chain 1) 0x0000000D0000016A 0 [0x16, 0x95] [0x00] 1 0 true 0x00 with phase := 1 })
      (fun s => (s.fsm, s.rspInt)) = some (.complete, 0x95) := by decide +kernel
/-- F3. -/
theorem test_getSubfield :
    got (step (inFlight (chain 1) 0x0000000000000B8B 0 [0x38, 0, 0] [0x00, 0x2E] 2 0 true 0x88)) (·.rspInt) = some 2 := by
  decide +kernel
/-- E16. -/
theorem test_getSubfield_unknown_register :
    got (step (addressed (chain 3) 0x0000000000000A0B 0)) (·.rspStatus) = some 1 := by decide +kernel

/-- A chain of two whose position 0 has a busy line (vectors B1 to B6). -/
def lined : Config := { chain 2 with busyLinePresent := [true, false] }

/-- B1 and B2. -/
theorem test_busy_line :
    got (execBusy 0 { addressed lined 0xC 0 with inp := { quietInputs with busyLine := 0 } }) (fun s => (s.rspBool, s.wire))
        = some (true, []) ∧
      got (execBusy 0 (addressed lined 0xC 0)) (·.rspBool) = some false := by decide +kernel
/-- B3 and B6's responses. -/
theorem test_busy_status :
    got (step (inFlight lined 0x000000000004000C 0 [0x39, 0, 0] [0x00, 0x7E] 2 1 true 0x01)) (fun s => (s.rspBool, s.rspInt))
        = some (true, 0x7E01) ∧
      got (step (inFlight { lined with statusBusyActiveLow := false } 0x000000000004000C 0 [0x39, 0, 0] [0x00, 0x7E] 2 1 true 0x03))
        (·.rspBool) = some true := by decide +kernel
/-- T2's first exchange, in a slot that is not the target's. -/
theorem test_wireNop :
    got (step (inFlight (chain 3) 0x0000015500040077 0 [0x07, 0x01, 0x55] [] 0 0 true 0xAA)) (fun s => (s.wire, s.t, s.echo.toList))
      = some ([.xfer 0x00 (some 0xAA)], 1, [0, 0, 0, 0]) := by decide +kernel
/-- T14's second exchange ends its byte-cycle, with chip-select released between cycles. -/
theorem test_wireNop_releases_chip_select :
    got (execWireNop (inFlight { chain 2 with csReleasePerCycle := true } 0x0000015500000077 0 [0x07, 0x01, 0x55] [] 0 1 true 0))
      (fun s => (s.wire, s.j, s.t)) = some ([.xfer 0x00 (some 0), .csDeassert, .csAssert], 1, 0) := by decide +kernel
/-- T2's second exchange. -/
theorem test_wireCmdSet :
    got (step (inFlight (chain 3) 0x0000015500040077 0 [0x07, 0x01, 0x55] [] 0 1 true 0xAA)) (fun s => (s.wire, s.echo.toList))
      = some ([.xfer 0x07 (some 0xAA)], [0xAA, 0, 0, 0]) := by decide +kernel
/-- T4: the descending order puts position 0 last. -/
theorem test_wireCmdSet_descending :
    got (step (inFlight { chain 3 with slotOrder := .descending } 0x0000015500000077 0 [0x07, 0x01, 0x55] [] 0 2 true 0))
      (fun s => (s.wire, s.j, s.t)) = some ([.xfer 0x07 (some 0)], 1, 0) := by decide +kernel
/-- T7's first exchange. -/
theorem test_wireCmdGet :
    got (step (inFlight (chain 2) 0x0000000000000198 0 [0x39, 0, 0] [] 0 0 true 0)) (·.wire) = some [.xfer 0x39 (some 0)] := by
  decide +kernel
/-- T15's fourth exchange fails. -/
theorem test_bus_failure :
    got (step (inFlight (chain 2) 0x0000015500000077 0 [0x07, 0x01, 0x55] [] 1 1 false 0))
      (fun s => (s.fsm, s.rspStatus, s.chainSuspect, s.wire)) = some (.complete, 5, true, [.xfer 0x00 none, .csDeassert]) := by
  decide +kernel
/-- Z1 (reading `rsp_status` faults) and Z2 (reset in flight). -/
theorem test_reset :
    (match step { State.reset with inp := { quietInputs with rspRead := [.status] } } with
      | .fault (.unspecifiedResponse .status) => true
      | .next _ | .fault _ | .refused _ => false) = true ∧
      got (step { inFlight (chain 2) 0x0000015500000077 0 [0x07, 0x01, 0x55] [] 1 1 true 0 with
        inp := { quietInputs with rst := true } }) (fun s => (s.fsm, s.chainSuspect, s.wire)) = some (.idle, false, [.csDeassert]) := by
  decide +kernel
/-- The arbitration vectors of section 5: either of two waiting requesters may be granted. -/
theorem test_either_requester :
    got (step { State.reset with cfg := { chain 1 with q := 2 }, inp := { quietInputs with
        reqs := [⟨true, 0x100000077, 0⟩, ⟨true, 0x200000077, 0⟩], grant := 0 } }) (fun s => (s.owner, s.req.val)) = some (some 0, 1) ∧
      got (step { State.reset with cfg := { chain 1 with q := 2 }, inp := { quietInputs with
        reqs := [⟨true, 0x100000077, 0⟩, ⟨true, 0x200000077, 0⟩], grant := 1 } }) (fun s => (s.owner, s.req.val)) = some (some 1, 2) := by
  decide +kernel

/-! ### Witnesses: states and operands that meet the hypotheses of the obligations, clause by clause -/

/-- The inputs of a quiet step, in which a transaction goes on. -/
theorem quiet_carries_on : quietInputs.CarriesOn := ⟨rfl, rfl, rfl⟩

theorem replicate_carries_on (n m : Nat) : ∀ x ∈ (List.replicate n quietInputs).take m, x.CarriesOn := fun x h => by
  rw [List.eq_of_mem_replicate (List.mem_of_mem_take h)]
  exact quiet_carries_on

/-- A state that holds a request, with the facts of the invariant that a kernel can evaluate. -/
theorem inv_of_held {s : State} (hc : s.cfg.wellFormed = true) (ho : s.owner = some 0) (hf : s.fsm ≠ .idle)
    (h : ((s.csAsserted = true ↔ s.fsm = .shifting) ∧ (s.rspValid = true ↔ s.fsm = .complete)) ∧
      (s.fsm = .idle ∨ s.fsm = .addressing → s.j = 0 ∧ s.t = 0 ∧ s.phase = 0) ∧
      (s.fsm = .shifting → s.t < s.cfg.n ∧ s.j < s.flen ∧ s.transactionLength = some s.flen) ∧
      (s.phase = 1 → s.req.op = 0xA#4) ∧ (s.fsm = .complete → s.rspStatus.toNat ≤ 9)) : s.Inv where
  configLegal := hc
  ownerInRange q hq := by
    rw [ho] at hq
    cases hq
    exact ((Config.wellFormed_iff _).1 hc).2.2.2.2.2.2
  ownerHeld := by simp [ho, hf]
  csInFlight := h.1.1
  rspHeld := h.1.2
  atRest := h.2.1
  inFlight := h.2.2.1
  twoPhases := h.2.2.2.1
  statusExists := h.2.2.2.2

/-- `getp 0, STATUS` in a chain of two (T7), in ADDRESSING and at the start of its transaction, with inputs for the whole of it. -/
def getting : State := { addressed (chain 2) 0x198 0 with script := List.replicate 6 quietInputs }
def gettingStarted : State := { inFlight (chain 2) 0x198 0 [0x39, 0, 0] [] 0 0 true 0 with script := List.replicate 5 quietInputs }

theorem getting_inv : getting.Inv := inv_of_held (by decide +kernel) rfl (by decide) (by decide +kernel)
theorem gettingStarted_inv : gettingStarted.Inv := inv_of_held (by decide +kernel) rfl (by decide) (by decide +kernel)
theorem getting_ready : getting.Ready := ⟨getting_inv.configLegal, rfl, rfl⟩
theorem gettingStarted_ready : gettingStarted.Ready := ⟨gettingStarted_inv.configLegal, rfl, rfl⟩

/-- A state whose latched request is the given one, in ADDRESSING. -/
theorem chain3_wellFormed : (chain 3).wellFormed = true := by decide +kernel
theorem addressed_ready (req phys : Word64) : (addressed (chain 3) req phys).Ready := ⟨chain3_wellFormed, rfl, rfl⟩

theorem witness_DecodeEncodeRoundTrip :
    (Instr.wellFormedFor WireCodes.table .wireNop && Instr.wellFormedFor WireCodes.table (.wireCmdSet 0x1F)
      && Instr.wellFormedFor WireCodes.table (.wireCmdGet 0x1F) && Instr.wellFormedFor WireCodes.table (.busy 255)) = true := by
  decide
theorem witness_UnreadFieldsAreIgnored :
    ((addressed (chain 3) 0x04000071 0).Ready ∧ (addressed (chain 3) 0x04000071 0).fsm = .addressing ∧
        (addressed (chain 3) 0x04000071 0).req.rsv ≠ 0#6) ∧
      (Request.ofWords 0x71 0).op = (Request.ofWords 0x03200071 7).op ∧
      (Request.ofWords 0x71 0).reg = (Request.ofWords 0x03200071 7).reg ∧ Request.ofWords 0x71 0 ≠ Request.ofWords 0x03200071 7 :=
  ⟨⟨addressed_ready _ _, rfl, by decide⟩, by decide, by decide, by decide⟩
theorem witness_ReservedCodesAreIllegal :
    ((addressed (chain 3) 0x0 0).Ready ∧ (addressed (chain 3) 0xF 0).Ready) ∧
      (addressed (chain 3) 0x0 0).req.op ∈ [0x0#4, 0xD#4, 0xE#4, 0xF#4] ∧
      (addressed (chain 3) 0xF 0).req.op ∈ [0x0#4, 0xD#4, 0xE#4, 0xF#4] :=
  ⟨⟨addressed_ready _ _, addressed_ready _ _⟩, by decide, by decide⟩
theorem witness_StepRunsDecodedRequest :
    getting.Ready ∧ getting.fsm = .addressing ∧ decodeFields getting.req = .ok (.getParam 0 0x19) :=
  ⟨getting_ready, rfl, by decide⟩
/-- A command byte, and a data byte (0x55, the third byte of the frame). -/
theorem witness_StepExchangesSlotByte :
    (gettingStarted.Ready ∧ gettingStarted.fsm = .shifting ∧
        decodeWire gettingStarted.cfg.wire gettingStarted.slotByte = .ok (.wireCmdGet 0x19)) ∧
      decodeWire (chain 2).wire (inFlight (chain 2) 0x77 0 [0x07, 0x01, 0x55] [] 2 0 true 0).slotByte = .error .dataByte :=
  ⟨⟨gettingStarted_ready, rfl, by decide⟩, by decide⟩
theorem witness_PlacedWordRunsNext :
    State.reset.cfg.wellFormed = true ∧ State.reset.cfg.wire = WireCodes.table ∧ decodeTableWord 8 0x39 = some (.wireCmdGet 0x19) :=
  ⟨by decide +kernel, rfl, by decide⟩

/-- Entries at both ends of the legal widths, and just outside them. -/
theorem witness_widths :
    (∀ w ∈ [1, 22, 0, 23], (only ⟨0x01, "", w, .rw, .identity⟩).lookup 0x01 = some ⟨0x01, "", w, .rw, .identity⟩) ∧
      (only acc).lookup 0x01 = none ∧ (1 ≤ 1 ∧ 1 ≤ 22) ∧ (1 ≤ 22 ∧ 22 ≤ 22) ∧ ¬(1 ≤ 0 ∧ 0 ≤ 22) ∧ ¬(1 ≤ 23 ∧ 23 ≤ 22) := by decide
theorem witness_LookupAnswersWidthAndAccess : (Request.ofWords 0x71 0).rsv = 0#6 ∧ (Request.ofWords 0x71 0).op = 0x1#4 := by decide
/-- IDENTITY at 511 and 512 (C26, C27), MOTION and LINEAR entries, and DEN = 0. -/
theorem witness_ConvertAnswersRegisterInteger :
    ((chain 3).lookup 0x02 = some ⟨0x02, "EL_POS", 9, .rw, .identity⟩ ∧ (0 : Int) ≤ 511 ∧ (511 : Int) ≤ 2 ^ 9 - 1) ∧
      (¬∃ r : Int, (512 : Rat) = r ∧ 0 ≤ r ∧ r ≤ 2 ^ 9 - 1) ∧ (only acc).lookup 0x05 = some acc ∧ (only lin).lookup 0x11 = some lin ∧
      (⟨1, 0⟩ : Phys).den = 0#32 ∧ (⟨511, 1⟩ : Phys).den ≠ 0#32 := by
  refine ⟨by decide +kernel, ?_, by decide +kernel, by decide +kernel, rfl, by decide⟩
  rintro ⟨r, h, _, h2⟩
  have : r = 512 := by exact_mod_cast h.symm
  omega
/-- In range at both ends, out of range on both sides, and the sentinel's value and another. -/
theorem witness_InvertAnswersPhysicalValue :
    (0 ≤ (0#32).toInt ∧ (0#32).toInt ≤ 2 ^ 4 - 1) ∧ (15#32).toInt ≤ 2 ^ 4 - 1 ∧ 2 ^ 4 - 1 < (16#32).toInt ∧ (-1#32).toInt < 0 ∧
      acc.conv = .motion (mkRat 1 8) 4095 (some ⟨30000, 4095⟩) ∧ (4095#32).toInt = ((4095 : Nat) : Int) ∧
      ∀ p, (some (⟨30000, 4095⟩ : Sentinel)) = some p → (3750#32).toInt ≠ p.value := by
  refine ⟨by decide, by decide, by decide, by decide, rfl, by decide, ?_⟩
  rintro p ⟨⟩
  decide
theorem witness_MotionConversionClampsAfterSentinel :
    (⟨30000, 4095⟩ : Sentinel).threshold < 30001 ∧ (30000 : Rat) ≤ (⟨30000, 4095⟩ : Sentinel).threshold := by
  constructor <;> norm_num
theorem witness_ConversionsAreMonotone : (0 : Rat) < mkRat 1 8 ∧ (1 : Rat) ≤ 2 := by decide +kernel
/-- The three clauses, each at the top of its range; MOTION with a sentinel, at the threshold and at the sentinel's value. -/
theorem witness_IntegersSurviveInversion :
    ((0 : Rat) < mkRat 1 8 ∧ ((3750 : Int) : Rat) / mkRat 1 8 ≤ 30000 ∧ (3750 : Int) ≤ (4095 : Nat)) ∧
      (4095 : Int) = ((⟨30000, 4095⟩ : Sentinel).value : Int) ∧ ((0 : Rat) < mkRat 1 375 ∧ (15 : Int) ≤ 2 ^ 4 - 1) ∧
      (0 : Int) ≤ 511 ∧ (511 : Int) ≤ 2 ^ 9 - 1 := by decide +kernel
theorem witness_ConversionsSaturate :
    (((1023 : Nat) : Rat) + 1 / 2 ≤ 20000 * mkRat 67 1000) ∧ ((2 : Rat) ^ 4 - 1 / 2 ≤ 10000 * mkRat 1 375 + -1) ∧
      acc.wellFormed = true ∧ convert acc 30001 = .ok 4095 := by decide +kernel
theorem witness_EncodeAnswersBytes :
    ((1 : Nat) ≤ (1#5).toNat ∧ (22#5).toNat ≤ 22) ∧ ¬(1 ≤ (0#5).toNat) ∧ ¬((23#5).toNat ≤ 22) := by decide
theorem witness_EncodingIsBigEndian : (encodeBytes 0x1ABCD 17)[0]? = some 0x01 ∧ (encodeBytes 0x1ABCD 17)[2]? = some 0xCD := by decide
theorem witness_CodecReverseRoundTrip :
    (([0xFF, 0xFF] : List Byte).length = nb 10 ∧ ([0xFF] : List Byte).length = nb 1) ∧ (0x03#8).toNat < 2 ^ (10 - 8 * (nb 10 - 1)) := by
  decide

/-- `setp 1, MAX_SPEED, 1000` (T5): its operands pass, and the frame of its last exchange carries 67. -/
theorem witness_SetParamSendsConvertedValue :
    let s := inFlight (chain 3) 0x0000000000040076 0x00000001000003E8 [0x07, 0x00, 0x43] [] 2 2 true 0
    let e : Entry := ⟨0x07, "MAX_SPEED", 10, .rw, .motion (mkRat 67 1000) 0x3FF none⟩
    s.cfg.lookup 0x07 = some e ∧ convert e ((1000 : Int) / (1 : Nat)) = .ok 67 ∧
      decodeFields s.req = .ok (.setParam 1 0x07 ⟨1000, 1⟩) ∧ (s.inp.bus.ok = true ∧ s.cfg.n ≤ s.t + 1 ∧ s.flen ≤ s.j + 1) ∧
      s.frame.toList.take s.flen = s.cfg.wire.set 0x07 :: encodeBytes 67 10 ∧ (0 : Int) ≤ 67 ∧ (67 : Int) < 2 ^ 10 := by
  decide +kernel
/-- A failing check for each of the four register operations' first clauses (E11, E7, E6, and an unknown field). -/
theorem witness_failing_checks :
    checkOrder.find? (checkFails (chain 3) (.setParam 0 0x04 ⟨1, 0⟩)) = some .readOnlyRegister ∧
      checkOrder.find? (checkFails (chain 3) (.setRaw 5 0x19 0)) = some .invalidPosition ∧
      checkOrder.find? (checkFails (chain 3) (.getParam 3 0x07)) = some .invalidPosition ∧
      checkOrder.find? (checkFails (chain 3) (.xferFrame 7 0 0)) = some .invalidFrameLength ∧
      checkOrder.find? (checkFails (chain 3) (.setSubfield 0 0x19 0 0)) = some .unknownField ∧
      checkOrder.find? (checkFails (chain 3) (.getSubfield 0 0x00 5)) = some .unknownRegister ∧
      checkOrder.find? (checkFails (chain 3) (.setRaw 2 0x07 0x155)) = none := by decide +kernel
/-- `setr 1, ABS_POS, -1` (T10). -/
theorem witness_SetRawSendsTruncatedValue :
    let s := inFlight (chain 2) 0xFFFFFFFF00040017 0 [0x01, 0x3F, 0xFF, 0xFF] [] 3 1 true 0
    decodeFields s.req = .ok (.setRaw 1 0x01 (-1)) ∧ (s.inp.bus.ok = true ∧ s.cfg.n ≤ s.t + 1 ∧ s.flen ≤ s.j + 1) ∧
      s.cfg.lookup 0x01 = some ⟨0x01, "ABS_POS", 22, .rw, .identity⟩ ∧
      s.frame.toList.take s.flen = s.cfg.wire.set 0x01 :: encodeBytes ((-1#32).toInt % 2 ^ 22) 22 := by decide +kernel
theorem witness_GetParamReadsEchoedValue :
    let s := inFlight (chain 2) 0x198 0 [0x39, 0, 0] [0, 0x7E] 2 1 true 0x03
    s.cfg.lookup 0x19 = some ⟨0x19, "STATUS", 16, .ro, .identity⟩ ∧ (0#8).toNat < s.cfg.n ∧
      decodeFields s.req = .ok (.getParam 0 0x19) ∧ s.inp.bus.ok = true ∧ s.cfg.n ≤ s.t + 1 ∧ s.flen ≤ s.j + 1 := by decide +kernel
/-- One byte and four bytes. -/
theorem witness_XferFrameSendsCallerBytes :
    (1 ≤ (1#5).toNat ∧ (4#5).toNat ≤ 4 ∧ (2#8).toNat < (chain 3).n) ∧
      let s := inFlight (chain 3) 0xB800000000082009 0 [0xB8] [] 0 2 true 0xCC
      decodeFields s.req = .ok (.xferFrame 2 1 0xB8000000) ∧ s.inp.bus.ok = true ∧ s.cfg.n ≤ s.t + 1 ∧ s.flen ≤ s.j + 1 := by decide
theorem witness_GetSubfieldReadsField :
    let s := inFlight (chain 1) 0x0000000000000B8B 0 [0x38, 0, 0] [0x00, 0x2E] 2 0 true 0x88
    s.cfg.lookup 0x18 = some ⟨0x18, "CONFIG", 16, .rw, .identity⟩ ∧ s.cfg.subfield 0x18 5 = some ⟨0x18, 5, "POW_SR", 8, 2⟩ ∧
      decodeFields s.req = .ok (.getSubfield 0 0x18 5) ∧ s.inp.bus.ok = true ∧ s.cfg.n ≤ s.t + 1 ∧ s.flen ≤ s.j + 1 := by
  decide +kernel
/-- F4 at the end of the read, and at the end of the write. -/
theorem witness_SetSubfieldReadsThenWrites :
    let s := inFlight (chain 1) 0x0000000D0000016A 0 [0x36, 0] [0] 1 0 true 0x97
    let s' := { inFlight (chain 1) 0x0000000D0000016A 0 [0x16, 0x95] [0] 1 0 true 0 with phase := 1 }
    (s.cfg.lookup 0x16 = some ⟨0x16, "STEP_MODE", 8, .rw, .identity⟩ ∧ s.cfg.subfield 0x16 0 = some ⟨0x16, 0, "STEP_SEL", 0, 3⟩ ∧
        decodeFields s.req = .ok (.setSubfield 0 0x16 0 0x0D) ∧ s.phase = 0 ∧ s.inp.bus.ok = true ∧ s.cfg.n ≤ s.t + 1 ∧
        s.flen ≤ s.j + 1) ∧
      decodeFields s'.req = .ok (.setSubfield 0 0x16 0 0x0D) ∧ s'.phase = 1 ∧ 0x95 < 2 ^ 8 ∧
      s'.frame.toList.take s'.flen = s'.cfg.wire.set 0x16 :: encodeBytes 0x95 8 := by decide +kernel
/-- Beyond the chain, with a line, and without one: STATUS_REG unknown, of an illegal width, and legal. -/
theorem witness_BusyAnswersFromLineOrStatus :
    (lined.n ≤ (2#8).toNat ∧ lined.hasBusyLine (0#8).toNat = true ∧ (1#8).toNat < lined.n ∧
        lined.hasBusyLine (1#8).toNat = false) ∧
      ({ lined with statusReg := 0 }).lookup 0 = none ∧
      ({ lined with registry := [⟨0x19, "", 23, .ro, .identity⟩] }).lookup 0x19 = some ⟨0x19, "", 23, .ro, .identity⟩ ∧
      lined.lookup lined.statusReg = some ⟨0x19, "STATUS", 16, .ro, .identity⟩ ∧
      decodeFields (inFlight lined 0x4000C 0 [0x39, 0, 0] [0, 0x7E] 2 1 true 1).req = .ok (.busy 1) := by decide +kernel

/-- A failed transfer, a byte in the middle of a cycle, at its end, and the last of the transaction. -/
theorem witness_WireBytesExchangeOneSlot :
    let s (j t : Nat) (ok : Bool) := inFlight (chain 2) 0x198 0 [0x39, 0, 0] [] j t ok 0
    (s 0 0 false).inp.bus.ok = false ∧ ((s 0 0 true).t + 1 < (s 0 0 true).cfg.n) ∧
      ((s 0 1 true).cfg.n ≤ (s 0 1 true).t + 1 ∧ (s 0 1 true).j + 1 < (s 0 1 true).flen ∧ (s 0 1 true).csAsserted = true) ∧
      ((s 2 1 true).cfg.n ≤ (s 2 1 true).t + 1 ∧ (s 2 1 true).flen ≤ (s 2 1 true).j + 1 ∧
        (s 2 1 true).transactionLength = some (s 2 1 true).flen) ∧
      encode (chain 2).wire (.wireCmdGet 0x19) = .wireByte 0x39 := by decide +kernel
theorem witness_ExchangeFrame :
    Instr.isWire .wireNop = true ∧ got (exec .wireNop gettingStarted) (·.fsm) = some .shifting := by decide +kernel
theorem witness_shifting : (gettingStarted.Inv ∧ gettingStarted.Ready ∧ gettingStarted.fsm = .shifting ∧
    gettingStarted.inp.bus.ok = true ∧ gettingStarted.inp.rst = false) ∧ ¬(gettingStarted.cfg.n ≤ gettingStarted.t + 1) :=
  ⟨⟨gettingStarted_inv, gettingStarted_ready, rfl, rfl, rfl⟩, by decide⟩
/-- The target's slot, and another. -/
theorem witness_EchoIsTargetSlotByte :
    gettingStarted.cfg.slotpos 0 = gettingStarted.req.pos.toNat ∧ gettingStarted.cfg.slotpos 1 ≠ gettingStarted.req.pos.toNat ∧
      got (step gettingStarted) (·.t) = some 1 := by decide +kernel
theorem witness_BusFailureEndsTransaction :
    let s := inFlight (chain 2) 0x198 0 [0x39, 0, 0] [] 1 1 false 0
    s.Ready ∧ s.fsm = .shifting ∧ s.inp.bus.ok = false := ⟨⟨by decide +kernel, rfl, rfl⟩, rfl, rfl⟩

theorem witness_ErrorEntryIsPrecise :
    let s := addressed (chain 3) 0xC0078 0
    (s.Ready ∧ s.fsm = .addressing) ∧ got (step s) (fun u => (u.fsm, u.rspStatus)) = some (.complete, 3) :=
  ⟨⟨addressed_ready _ _, rfl⟩, by decide +kernel⟩
theorem witness_FirstFailingCheckIsReported :
    ((addressed (chain 3) 0xD 0).Ready ∧ decodeFields (addressed (chain 3) 0xD 0).req = .error .reservedOperation) ∧
      ((chain 2).n ≤ (2#8).toNat ∧ (1#8).toNat < (chain 2).n ∧ (chain 2).hasBusyLine 1 = false) ∧
      ({ chain 2 with statusReg := 0 }).lookup 0 = none ∧
      (only ⟨0x19, "", 23, .ro, .identity⟩).lookup (chain 3).statusReg = some ⟨0x19, "", 23, .ro, .identity⟩ :=
  ⟨⟨addressed_ready _ _, by decide⟩, by decide, by decide +kernel, by decide⟩
theorem witness_ReadOnlyRegistersAreNotSet :
    let c : Config := { chain 3 with subfields := [⟨0x19, 0, "HIZ", 0, 1⟩] }
    (c.wellFormed = true ∧ c.lookup 0x19 = some ⟨0x19, "STATUS", 16, .ro, .identity⟩ ∧ (2#8).toNat < c.n ∧
        c.subfield 0x19 0 = some ⟨0x19, 0, "HIZ", 0, 1⟩) ∧
      c.lookup 0x01 = some ⟨0x01, "ABS_POS", 22, .rw, .identity⟩ := by decide +kernel
/-- A request that fails a check, and one that passes. -/
theorem witness_ChecksPrecedeTheBus :
    (getting.Inv ∧ getting.Ready ∧ got (step getting) (·.fsm) = some .shifting) ∧
      got (step (addressed (chain 3) 0xC0078 0)) (·.fsm) = some .complete :=
  ⟨⟨getting_inv, getting_ready, by decide +kernel⟩, by decide +kernel⟩
/-- No response held; a response of an error; LOOKUP's response, which has a width and no integer; a sentinel read back; and an
encoding of two bytes. -/
theorem witness_UnspecifiedReadsFault :
    (State.reset.cfg.wellFormed = true ∧ State.reset.rspValid = false) ∧
      (({ State.reset with cfg := chain 3 } : State).raise .invalidWidth).rspStatus ≠ 0#4 ∧
      (decodeFields (answered (chain 3) []).req = .ok (.lookup 0x07) ∧
        responseWrites (chain 3) (.lookup 0x07) .int = false ∧ responseWrites (chain 3) (.lookup 0x07) .width = true ∧
        (answered (chain 3) []).rspValid = true ∧ (answered (chain 3) []).rspStatus = 0#4) ∧
      got (execInvert 0x05 4095 (addressed (only acc) 0 0)) (·.rspUnlimited) = some true ∧
      got (execEncode 10 67 State.reset) (fun s => decide (s.rspLen.toNat ≤ 2)) = some true := by decide +kernel
/-- The status of a held IllegalOperation is read. -/
theorem witness_UnspecifiedReadsFault_status :
    let s := { (addressed (chain 3) 0xF 0).raise .illegalOperation with inp := { quietInputs with rspRead := [.status] } }
    s.cfg.wellFormed = true ∧ s.inp.rspRead = [.status] ∧ s.rspValid = true ∧ s.rspStatus = 0x8#4 ∧ s.inp.rst = false ∧
      got (step s) (·.fsm) = some .complete := by decide +kernel
theorem witness_IllFormedConfigurationIsRefused : ({ State.reset with cfg := chain 0 } : State).cfg.wellFormed = false ∧
    Config.default.wellFormed = true := by decide +kernel

theorem witness_AcceptGrantsAWaitingRequester :
    let s := { State.reset with inp := { quietInputs with reqs := [⟨true, 0x71, 0⟩] } }
    (s.Ready ∧ s.fsm = .idle ∧ 0 < s.cfg.q ∧ s.inp.reqs[0]? = some ⟨true, 0x71, 0⟩) ∧
      ∀ q p, q < State.reset.cfg.q → State.reset.inp.reqs[q]? = some p → p.valid = false :=
  ⟨⟨⟨by decide +kernel, rfl, rfl⟩, rfl, by decide, rfl⟩, fun _ _ _ h => by cases h⟩
theorem witness_OneRequestAtATime :
    getting.inp.rst = false ∧ getting.fsm ≠ .idle ∧ got (step getting) (·.fsm) = some .shifting ∧
      got (step (answered (chain 3) [0])) (·.fsm) = some .idle := by decide +kernel
/-- Taken, and not taken. -/
theorem witness_ResponseIsHeldUntilTaken :
    ((answered (chain 3) [0]).Ready ∧ (answered (chain 3) [0]).fsm = .complete) ∧
      ((answered (chain 3) [0]).owner = some 0 ∧ 0 ∈ (answered (chain 3) [0]).inp.take) ∧
      0 ∉ (answered (chain 3) []).inp.take := ⟨⟨⟨by decide +kernel, rfl, rfl⟩, rfl⟩, by decide, by decide⟩
theorem witness_ResponseRegistersChangeOnCompletion :
    getting.inp.rst = false ∧ got (step getting) (fun u => decide (¬(getting.fsm ≠ .complete ∧ u.fsm = .complete))) = some true := by
  decide +kernel
theorem witness_BlockResetAbandonsEverything :
    let s := { gettingStarted with inp := { quietInputs with rst := true } }
    s.cfg.wellFormed = true ∧ s.inp.rst = true ∧ s.inp.rspRead = [] ∧ got (step s) (·.fsm) = some .idle := by decide +kernel
theorem witness_FieldIsolation : 1 ≤ 3 ∧ 19 + 3 ≤ 22 ∧ (18 < 32 ∧ 18 < 19) ∧ 31 < 32 ∧ 19 + 3 ≤ 31 := by decide
theorem witness_StepKeepsInvariant : getting.Inv ∧ got (step getting) (·.fsm) = some .shifting ∧ getting.badRead = none :=
  ⟨getting_inv, by decide +kernel, rfl⟩

theorem witness_TransactionShowsItsExchanges :
    gettingStarted.Inv ∧ gettingStarted.fsm = .shifting ∧ gettingStarted.j = 0 ∧ gettingStarted.t = 0 ∧
      gettingStarted.cfg.n * gettingStarted.flen ≤ gettingStarted.coming.length ∧
      ∀ x ∈ gettingStarted.coming.take (gettingStarted.cfg.n * gettingStarted.flen), x.CarriesOn :=
  ⟨gettingStarted_inv, rfl, rfl, rfl, by decide, replicate_carries_on 6 _⟩
theorem witness_SingleDeviceSendsTheFrame :
    let s := { inFlight (chain 1) 0x18 0 [0x21, 0, 0, 0] [] 0 0 true 0 with script := List.replicate 3 quietInputs }
    s.Inv ∧ s.fsm = .shifting ∧ s.j = 0 ∧ s.t = 0 ∧ s.cfg.n = 1 ∧ s.flen ≤ s.coming.length ∧
      ∀ x ∈ s.coming.take s.flen, x.CarriesOn :=
  ⟨inv_of_held (by decide +kernel) rfl (by decide) (by decide +kernel), rfl, rfl, rfl, rfl, by decide, replicate_carries_on 4 _⟩
theorem witness_GetParamEndToEnd :
    getting.Inv ∧ getting.fsm = .addressing ∧ getting.inp.rst = false ∧ getting.inp.rspRead = [] ∧
      decodeFields getting.req = .ok (.getParam 0 0x19) ∧
      getting.cfg.lookup 0x19 = some ⟨0x19, "STATUS", 16, .ro, .identity⟩ ∧ (0#8).toNat < getting.cfg.n ∧
      getting.cfg.n * (1 + nb 16) ≤ getting.script.length ∧
      ∀ x ∈ getting.script.take (getting.cfg.n * (1 + nb 16)), x.CarriesOn :=
  ⟨getting_inv, rfl, rfl, rfl, by decide, by decide +kernel, by decide, by decide, replicate_carries_on 6 _⟩

/-- One chain in each slot order. -/
theorem witness_NonTargetSlotsCarryNop :
    (({ chain 3 with slotOrder := .ascending }).slotOrder = .ascending ∧ ({ chain 3 with slotOrder := .ascending }).slotpos 0 = 0) ∧
      ({ chain 3 with slotOrder := .descending }).slotOrder = .descending ∧
      ({ chain 3 with slotOrder := .descending }).slotpos 0 = 2 := by decide
theorem witness_LinearConversionScalesRoundsClamps : lin.conv = .linear (mkRat 1 375) (-1) ∧ lin.width = 4 := ⟨rfl, rfl⟩
theorem witness_CommandByteTellsFrameLength :
    (chain 3).lookup 0x19 = some ⟨0x19, "STATUS", 16, .ro, .identity⟩ ∧ frameLengthOf (chain 3) 0x39 = some 3 := by decide +kernel
theorem witness_DecodingMasksBeyondWidth :
    (1 ≤ 10 ∧ 10 ≤ 22 ∧ ([0xFF, 0x43] : List Byte).length = nb 10) ∧ ([0xFF] : List Byte).length = nb 1 ∧
      ([0xFF, 0xFF, 0xFF] : List Byte).length = nb 22 := by decide

end Sys2Proof.Tests
end

section
/-! PROOFS. Rounding of the unit converter (00_scope.md R9): `roundHa` by the sign of its argument, in the floor of Mathlib's
`FloorRing`, which is `Rat.floor` on the rationals. -/

namespace Sys2Proof.Machine

theorem roundHa_of_nonneg {x : Rat} (hx : 0 ≤ x) : roundHa x = ⌊x + 1 / 2⌋ := if_neg hx.not_gt

theorem roundHa_of_neg {x : Rat} (hx : x < 0) : roundHa x = -⌊-x + 1 / 2⌋ := if_pos hx

@[simp] theorem roundHa_zero : roundHa 0 = 0 := by
  rw [roundHa_of_nonneg le_rfl]
  norm_num

/-- Settles O11, by the sign of the argument: the two branches of `roundHa` are the formula at `|x| = -x` and `|x| = x`, and at
zero, where the sign is 0, the floor of one half is 0 too. -/
theorem roundHalfAwayFromZero : Obligations.RoundHalfAwayFromZero := by
  intro x
  rcases lt_trichotomy x 0 with hneg | rfl | hpos
  · rw [roundHa_of_neg hneg, sign_neg hneg, abs_of_neg hneg]
    simp
  · simp
  · rw [roundHa_of_nonneg hpos.le, sign_pos hpos, abs_of_pos hpos]
    simp

end Sys2Proof.Machine
end

section
/-! PROOFS. The block's state (10_state.md): every move of the transaction state machine, listed once as `State.Moves`; that each
keeps the engine's invariant and which leave the response registers and `chain_suspect` alone; when a response register has a value
(R37); and the configurations that are legal (R40). -/

namespace Sys2Proof.Machine

/-! ### The moves of the transaction state machine -/

/-- The moves of the transaction state machine (10_state.md R22), before the next inputs come: one constructor for each way a step
without reset can go, with what the rule requires of the state it starts from. -/
inductive State.Moves (s : State) : State → Prop where
  /-- No requester waits (60_exceptions.md R312). -/
  | idle (hfsm : s.fsm = .idle) : s.Moves s
  /-- ACCEPT (43_chain.md R201). -/
  | accept (hfsm : s.fsm = .idle) (q : Nat) (p : ReqPort) (hq : q < s.cfg.q) (hp : s.inp.reqs[q]? = some p)
      (hv : p.valid = true) : s.Moves (s.accept q p)
  /-- An ADDRESSING step that enters an error (43_chain.md R202). -/
  | error (hfsm : s.fsm = .addressing) (e : ErrCode) (he : e ≠ .busTransferFailed) : s.Moves (s.raise e)
  /-- An ADDRESSING step that answers at once (43_chain.md R202). -/
  | answer (hfsm : s.fsm = .addressing) (t : State) (ht : s.OnlyResponds t) : s.Moves t
  /-- An ADDRESSING step that starts a transaction, every check passed (43_chain.md R202). -/
  | start (hfsm : s.fsm = .addressing) (bs : List Byte) (hn : s.transactionLength = some bs.length) :
      s.Moves (s.startTransaction bs)
  /-- A failed exchange (43_chain.md R210). -/
  | fail (hfsm : s.fsm = .shifting) (hok : s.inp.bus.ok = false) :
      s.Moves (State.busFail { s with wire := s.wire ++ [.xfer s.slotByte none] })
  /-- An exchange with a next slot in its byte-cycle (43_chain.md R205). -/
  | nextSlot (hfsm : s.fsm = .shifting) (hok : s.inp.bus.ok = true) (ht : s.t + 1 < s.cfg.n) :
      s.Moves { s.capture s.slotByte with t := s.t + 1 }
  /-- An exchange that ends its byte-cycle, with a next one (43_chain.md R205, R208). -/
  | nextCycle (hfsm : s.fsm = .shifting) (hok : s.inp.bus.ok = true) (ht : s.cfg.n ≤ s.t + 1) (hj : s.j + 1 < s.flen) :
      s.Moves (State.betweenCycles { s.capture s.slotByte with t := 0, j := s.j + 1 })
  /-- The last exchange, after which the operation responds (43_chain.md R209). -/
  | finish (hfsm : s.fsm = .shifting) (hl : s.LastExchange) (t : State) (ht : (s.afterLast s.slotByte).OnlyResponds t) : s.Moves t
  /-- The last exchange of SET_SUBFIELD's read, after which its write starts (45_subfield.md R283). -/
  | writeBack (hfsm : s.fsm = .shifting) (hl : s.LastExchange) (bs : List Byte) (hp : s.phase = 0) (hop : s.req.op = 0xA#4)
      (hn : ∀ n, s.transactionLength = some n → bs.length = n) :
      s.Moves (({ s.afterLast s.slotByte with phase := 1 } : State).startTransaction bs)
  /-- The response is not taken (70_reset_and_hazards.md R349). -/
  | held (hfsm : s.fsm = .complete) : s.Moves s
  /-- TAKE (43_chain.md R209). -/
  | take (hfsm : s.fsm = .complete) (ht : s.taken = true) : s.Moves s.takeResponse

/-- The requesters that wait are those whose port is valid (43_chain.md R201). -/
theorem State.mem_waiting {s : State} {q : Nat} {p : ReqPort} :
    (q, p) ∈ s.waiting ↔ q < s.cfg.q ∧ s.inp.reqs[q]? = some p ∧ p.valid = true := by
  simp only [State.waiting, List.mem_filterMap, List.mem_range]
  constructor
  · rintro ⟨k, hk, h⟩
    split at h
    · split at h <;> cases h
      exact ⟨hk, ‹_›, ‹_›⟩
    · cases h
  · rintro ⟨hq, hp, hv⟩
    exact ⟨q, hq, by simp [hp, hv]⟩

/-- The arbiter grants a requester that waits (43_chain.md R201). -/
theorem State.granted_mem_waiting {s : State} {w : Nat × ReqPort} (h : s.granted = some w) : w ∈ s.waiting := by
  unfold State.granted at h
  split at h
  · next hf => cases h; exact List.mem_of_find?_eq_some hf
  · exact List.mem_of_mem_head? h

theorem State.idleStep_moves {s : State} (hfsm : s.fsm = .idle) : s.Moves s.idleStep := by
  unfold State.idleStep
  split
  · next w h =>
    obtain ⟨hq, hp, hv⟩ := State.mem_waiting.1 (State.granted_mem_waiting h)
    exact .accept hfsm _ _ hq hp hv
  · exact .idle hfsm

theorem State.completeStep_moves {s : State} (hfsm : s.fsm = .complete) : s.Moves s.completeStep := by
  unfold State.completeStep
  split
  · next h => exact .take hfsm h
  · exact .held hfsm

theorem addressingStep_moves {s : State} (hfsm : s.fsm = .addressing) : ∃ v, addressingStep s = .next v ∧ s.Moves v := by
  unfold addressingStep
  split
  · next i hd =>
    obtain ⟨v, hv, ⟨e, he, rfl⟩ | ht | ⟨bs, rfl, hn⟩⟩ := exec_request i (decodeFields_isWire hd) s
    · exact ⟨_, hv, .error hfsm e he.1⟩
    · exact ⟨_, hv, .answer hfsm _ ht⟩
    · exact ⟨_, hv, .start hfsm bs (hn hd)⟩
  · exact ⟨_, rfl, .error hfsm _ (by decide)⟩

/-- A SHIFT step moves, or its request runs no transaction (43_chain.md R205). -/
theorem shiftingStep_moves {s : State} (hfsm : s.fsm = .shifting) :
    (∃ v, shiftingStep s = .next v ∧ s.Moves v) ∨
      (shiftingStep s = .fault .noTransaction ∧ ∀ n, s.transactionLength ≠ some n) := by
  rw [shiftingStep_eq]
  obtain ⟨hok, hx⟩ | ⟨hok, ht, hx⟩ | ⟨hok, ht, hj, hx⟩ | ⟨hl, hx⟩ := exchange_cases s.slotByte s
  · exact .inl ⟨_, hx, .fail hfsm hok⟩
  · exact .inl ⟨_, hx, .nextSlot hfsm hok ht⟩
  · exact .inl ⟨_, hx, .nextCycle hfsm hok ht hj⟩
  · rw [hx]
    obtain ⟨v, hf, hv⟩ | ⟨bs, hf, hp, hop, hn⟩ | hf := finish_cases (s.afterLast s.slotByte)
    · exact .inl ⟨v, hf, .finish hfsm hl v hv⟩
    · exact .inl ⟨_, hf, .writeBack hfsm hl bs hp hop hn⟩
    · exact .inr hf

/-- The state machine moves, but for the end of a transaction that the latched request does not run (10_state.md R22). -/
theorem fsmStep_moves (s : State) :
    (∃ v, fsmStep s = .next v ∧ s.Moves v) ∨
      (fsmStep s = .fault .noTransaction ∧ s.fsm = .shifting ∧ ∀ n, s.transactionLength ≠ some n) := by
  unfold fsmStep
  cases hfsm : s.fsm with
  | idle => exact .inl ⟨_, rfl, State.idleStep_moves hfsm⟩
  | addressing => exact .inl (addressingStep_moves hfsm)
  | shifting =>
    obtain hv | ⟨hf, hn⟩ := shiftingStep_moves hfsm
    · exact .inl hv
    · exact .inr ⟨hf, rfl, hn⟩
  | complete => exact .inl ⟨_, rfl, State.completeStep_moves hfsm⟩

/-- A step that answers a next state is a block reset or a move of the state machine, and then the next inputs come. -/
theorem step_next {s u : State} (h : step s = .next u) :
    (s.inp.rst = true ∧ u = s.blockReset.nextInputs) ∨ (s.inp.rst = false ∧ ∃ v, s.Moves v ∧ u = v.nextInputs) := by
  obtain ⟨-, hs⟩ | ⟨-, r, -, hs⟩ | ⟨-, -, hrst, hs⟩ | ⟨hr, hs⟩ := step_cases s <;> rw [h] at hs
  · cases hs
  · cases hs
  · cases hs; exact .inl ⟨hrst, rfl⟩
  · obtain ⟨v, hf, hv⟩ | ⟨hf, -, -⟩ := fsmStep_moves s <;> rw [hf] at hs <;> cases hs
    exact .inr ⟨hr.running, v, hv, rfl⟩

/-- Without reset a step that answers a next state is a move of the state machine. -/
theorem step_next_of_running {s u : State} (hrst : s.inp.rst = false) (h : step s = .next u) :
    ∃ v, s.Moves v ∧ u = v.nextInputs := by
  obtain ⟨hr, -⟩ | ⟨-, hv⟩ := step_next h
  · rw [hrst] at hr; cases hr
  · exact hv

/-! ### What a response leaves alone -/

namespace State.OnlyResponds

variable {s t : State} (h : s.OnlyResponds t)
include h

theorem cfg_eq : t.cfg = s.cfg := (congrArg State.cfg h :)
theorem owner_eq : t.owner = s.owner := (congrArg State.owner h :)
theorem req_eq : t.req = s.req := (congrArg State.req h :)
theorem phase_eq : t.phase = s.phase := (congrArg State.phase h :)
theorem csAsserted_eq : t.csAsserted = s.csAsserted := (congrArg State.csAsserted h :)
theorem chainSuspect_eq : t.chainSuspect = s.chainSuspect := (congrArg State.chainSuspect h :)
theorem fsm_eq : t.fsm = .complete := (congrArg State.fsm h :)
theorem rspValid_eq : t.rspValid = true := (congrArg State.rspValid h :)
theorem rspStatus_eq : t.rspStatus = statusOk := (congrArg State.rspStatus h :)

end State.OnlyResponds

/-! ### The invariant is kept -/

theorem ErrCode.code_le_nine (e : ErrCode) : e.code.toNat ≤ 9 := by cases e <;> decide

/-- The frame length of a transaction depends on the configuration and the latched request alone. -/
theorem State.transactionLength_congr {s t : State} (hc : t.cfg = s.cfg) (hr : t.req = s.req) :
    t.transactionLength = s.transactionLength := by
  simp only [State.transactionLength, hc, hr]

/-- `t` holds the request that `s` holds, under the same configuration. -/
structure State.HoldsSameRequest (s t : State) : Prop where
  cfg   : t.cfg = s.cfg
  owner : t.owner = s.owner
  req   : t.req = s.req

/-- With no request held and every counter at rest the invariant is that of the configuration (10_state.md R41). -/
theorem State.inv_of_idle {t : State} (hc : t.cfg.wellFormed = true) (ho : t.owner = none) (hft : t.fsm = .idle)
    (hcs : t.csAsserted = false) (hrv : t.rspValid = false) (hrest : t.j = 0 ∧ t.t = 0 ∧ t.phase = 0) : t.Inv where
  configLegal := hc
  ownerInRange := by simp [ho]
  ownerHeld := by simp [ho, hft]
  csInFlight := by simp [hcs, hft]
  rspHeld := by simp [hrv, hft]
  atRest _ := hrest
  inFlight := by simp [hft]
  twoPhases := by simp [hrest]
  statusExists := by simp [hft]

namespace State.Inv

variable {s t : State} (hi : s.Inv)
include hi

theorem chain_pos : 0 < s.cfg.n := by
  obtain ⟨⟨hn, -⟩, -⟩ := (Config.wellFormed_iff _).1 hi.configLegal
  exact hn

theorem owner_ne_none (hf : s.fsm ≠ .idle) : s.owner ≠ none := fun h => hf (hi.ownerHeld.1 h)

theorem csAsserted_eq_false (hf : s.fsm ≠ .shifting) : s.csAsserted = false :=
  Bool.eq_false_iff.2 fun h => hf (hi.csInFlight.1 h)

theorem rspValid_eq_false (hf : s.fsm ≠ .complete) : s.rspValid = false :=
  Bool.eq_false_iff.2 fun h => hf (hi.rspHeld.1 h)

/-- A request that is held keeps the invariant as its response is entered (43_chain.md R209). -/
theorem of_complete (hf : s.fsm ≠ .idle) (hs : s.HoldsSameRequest t) (hph : t.phase = s.phase) (hft : t.fsm = .complete)
    (hcs : t.csAsserted = false) (hrv : t.rspValid = true) (hst : t.rspStatus.toNat ≤ 9) : t.Inv where
  configLegal := hs.cfg ▸ hi.configLegal
  ownerInRange := by rw [hs.owner, hs.cfg]; exact hi.ownerInRange
  ownerHeld := by simp [hs.owner, hft, hi.owner_ne_none hf]
  csInFlight := by simp [hft, hcs]
  rspHeld := by simp [hft, hrv]
  atRest := by simp [hft]
  inFlight := by simp [hft]
  twoPhases := by rw [hph, hs.req]; exact hi.twoPhases
  statusExists _ := hst

/-- A request that is held keeps the invariant as its transaction starts or goes on (43_chain.md R205). -/
theorem of_shifting (hf : s.fsm ≠ .idle) (hs : s.HoldsSameRequest t) (hph : t.phase = 1 → s.req.op = 0xA#4)
    (hft : t.fsm = .shifting) (hcs : t.csAsserted = true) (hrv : t.rspValid = false)
    (ht : t.t < s.cfg.n) (hj : t.j < t.flen) (hn : s.transactionLength = some t.flen) : t.Inv where
  configLegal := hs.cfg ▸ hi.configLegal
  ownerInRange := by rw [hs.owner, hs.cfg]; exact hi.ownerInRange
  ownerHeld := by simp [hs.owner, hft, hi.owner_ne_none hf]
  csInFlight := by simp [hft, hcs]
  rspHeld := by simp [hft, hrv]
  atRest := by simp [hft]
  inFlight _ := ⟨hs.cfg ▸ ht, hj, by rw [transactionLength_congr hs.cfg hs.req, hn]⟩
  twoPhases := hs.req ▸ hph
  statusExists := by simp [hft]

theorem accept {q : Nat} (p : ReqPort) (hf : s.fsm = .idle) (hq : q < s.cfg.q) : (s.accept q p).Inv where
  configLegal := hi.configLegal
  ownerInRange := by simpa using hq
  ownerHeld := by simp
  csInFlight := by simp [hi.csAsserted_eq_false (by simp [hf])]
  rspHeld := by simp [hi.rspValid_eq_false (by simp [hf])]
  atRest := by simp
  inFlight := by simp
  twoPhases := by simp
  statusExists := by simp

theorem takeResponse (hf : s.fsm = .complete) : s.takeResponse.Inv :=
  inv_of_idle hi.configLegal rfl rfl (hi.csAsserted_eq_false (by simp [hf])) rfl ⟨rfl, rfl, rfl⟩

theorem blockReset : s.blockReset.Inv := inv_of_idle hi.configLegal rfl rfl rfl rfl ⟨rfl, rfl, rfl⟩

/-- The invariant says nothing of the inputs. -/
theorem nextInputs : s.nextInputs.Inv where
  configLegal := by simpa using hi.configLegal
  ownerInRange := by simpa using hi.ownerInRange
  ownerHeld := by simpa using hi.ownerHeld
  csInFlight := by simpa using hi.csInFlight
  rspHeld := by simpa using hi.rspHeld
  atRest := by simpa using hi.atRest
  inFlight := by simpa [State.transactionLength_congr (s := s) (t := s.nextInputs)] using hi.inFlight
  twoPhases := by simpa using hi.twoPhases
  statusExists := by simpa using hi.statusExists

/-- Every move of the state machine keeps the invariant. -/
theorem moves (h : s.Moves t) : t.Inv := by
  cases h with
  | idle | held => exact hi
  | accept hfsm q p hq _ _ => exact hi.accept p hfsm hq
  | take hfsm _ => exact hi.takeResponse hfsm
  | error hfsm e _ =>
    exact hi.of_complete (by simp [hfsm]) ⟨rfl, rfl, rfl⟩ rfl rfl (hi.csAsserted_eq_false (by simp [hfsm])) rfl e.code_le_nine
  | answer hfsm _ ht =>
    refine hi.of_complete (by simp [hfsm]) ⟨ht.cfg_eq, ht.owner_eq, ht.req_eq⟩ ht.phase_eq ht.fsm_eq ?_ ht.rspValid_eq
      (by simp [ht.rspStatus_eq, statusOk])
    rw [ht.csAsserted_eq, hi.csAsserted_eq_false (by simp [hfsm])]
  | start hfsm bs hn =>
    exact hi.of_shifting (by simp [hfsm]) ⟨rfl, rfl, rfl⟩ hi.twoPhases rfl rfl (hi.rspValid_eq_false (by simp [hfsm]))
      hi.chain_pos (transactionLength_bounds hn).1 hn
  | fail hfsm _ => exact hi.of_complete (by simp [hfsm]) ⟨rfl, rfl, rfl⟩ rfl rfl rfl rfl (ErrCode.code_le_nine _)
  | nextSlot hfsm _ ht =>
    obtain ⟨-, hj, hn⟩ := hi.inFlight hfsm
    exact hi.of_shifting (by simp [hfsm]) ⟨rfl, rfl, rfl⟩ hi.twoPhases hfsm (hi.csInFlight.2 hfsm)
      (hi.rspValid_eq_false (by simp [hfsm])) ht hj hn
  | nextCycle hfsm _ _ hj =>
    obtain ⟨-, -, hn⟩ := hi.inFlight hfsm
    exact hi.of_shifting (by simp [hfsm]) ⟨by simp, by simp, by simp⟩ (by simpa using hi.twoPhases) (by simpa using hfsm)
      (by simp [hi.csInFlight.2 hfsm]) (by simp [hi.rspValid_eq_false, hfsm]) (by simpa using hi.chain_pos)
      (by simpa using hj) (by simpa using hn)
  | finish hfsm _ _ ht =>
    exact hi.of_complete (by simp [hfsm]) ⟨ht.cfg_eq, ht.owner_eq, ht.req_eq⟩ ht.phase_eq ht.fsm_eq ht.csAsserted_eq
      ht.rspValid_eq (by simp [ht.rspStatus_eq, statusOk])
  | writeBack hfsm _ bs _ hop hn =>
    obtain ⟨-, -, hn'⟩ := hi.inFlight hfsm
    have hlen : s.transactionLength = some bs.length := by rw [hn', hn _ hn']
    exact hi.of_shifting (by simp [hfsm]) ⟨rfl, rfl, rfl⟩ (fun _ => hop) rfl rfl (hi.rspValid_eq_false (by simp [hfsm]))
      hi.chain_pos (transactionLength_bounds hlen).1 hlen

end State.Inv

/-- Settles O53: block reset keeps the invariant, every move of the state machine does, and the next inputs do not touch it. -/
theorem stepKeepsInvariant : Obligations.StepKeepsInvariant := by
  intro s u hi h
  obtain ⟨-, rfl⟩ | ⟨-, v, hv, rfl⟩ := step_next h
  · exact hi.blockReset.nextInputs
  · exact (hi.moves hv).nextInputs

/-- Settles O54: with the invariant a transaction in flight is one that its request runs, so the state machine always moves. -/
theorem blockNeverStops : Obligations.BlockNeverStops := by
  intro s hi hread
  obtain ⟨hw, -⟩ | ⟨-, r, hr, -⟩ | ⟨-, -, -, hs⟩ | ⟨-, hs⟩ := step_cases s
  · rw [hi.configLegal] at hw; cases hw
  · rw [hread] at hr; cases hr
  · exact ⟨_, hs⟩
  · obtain ⟨v, hf, -⟩ | ⟨-, hfsm, hn⟩ := fsmStep_moves s
    · exact ⟨v.nextInputs, by rw [hs, hf, advance]⟩
    · obtain ⟨-, -, hlen⟩ := hi.inFlight hfsm
      exact absurd hlen (hn _)

/-! ### What the moves leave in the response registers and in `chain_suspect` -/

/-- Settles O44: the moves that write a response register are the errors, the answers, the failed exchange and the last one, and
each of them enters COMPLETE. -/
theorem responseRegistersChangeOnCompletion : Obligations.ResponseRegistersChangeOnCompletion := by
  intro s u hrst h hn
  obtain ⟨v, hv, rfl⟩ := step_next_of_running hrst h
  cases hv with
  | idle | accept | start | nextSlot | nextCycle | writeBack | held | take => simp [State.afterLast]
  | error hfsm | fail hfsm => simp [hfsm] at hn
  | answer hfsm _ ht | finish hfsm _ _ ht => simp [hfsm, ht.fsm_eq] at hn

/-- Settles O45: of the moves the failed exchange alone writes `chain_suspect`, and each other is made outside SHIFTING or after a
successful exchange. -/
theorem chainSuspectIsSticky : Obligations.ChainSuspectIsSticky := by
  intro s u hrst h
  obtain ⟨v, hv, rfl⟩ := step_next_of_running hrst h
  cases hv with
  | fail hfsm hok => simp [hfsm, hok]
  | idle hfsm | accept hfsm | error hfsm | start hfsm | held hfsm | take hfsm => simp [hfsm]
  | answer hfsm _ ht => simp [hfsm, ht.chainSuspect_eq]
  | nextSlot _ hok | nextCycle _ hok => simp [hok]
  | finish _ hl _ ht =>
    obtain ⟨hok, -, -⟩ := hl
    simp [hok, ht.chainSuspect_eq, State.afterLast]
  | writeBack _ hl =>
    obtain ⟨hok, -, -⟩ := hl
    simp [hok, State.afterLast]

/-! ### When a response register has a value -/

/-- The latched operation writes the register when it succeeds, by its code (10_state.md R28): `responseWrites` of the request's
operation, whether or not the request decodes to one. -/
def State.opWrites (s : State) : RspReg → Bool
  | .status => true
  | .int => s.writesInt
  | .phys | .unlimited => s.req.op == 0x3#4
  | .bytes _ | .len => s.writesBytes
  | .bool => s.req.op == 0xC#4
  | .width | .access => s.req.op == 0x1#4

theorem State.opWrites_eq {s : State} {i : Instr} (h : decodeFields s.req = .ok i) (r : RspReg) :
    s.opWrites r = responseWrites s.cfg i r := by
  rw [Bool.eq_iff_iff]
  unfold decodeFields at h
  split at h
  · cases h
  · split at h <;> cases h <;> rename_i hop
    all_goals cases r <;> simp [State.opWrites, State.writesInt, State.writesBytes, responseWrites, holdsBytes, hop]

/-- A response register has a value exactly while a response is held that has it: the status always, any other after success when
the operation writes it, `rsp_phys` when the result has a number and a byte below `rsp_len` (10_state.md R28, R37). -/
theorem State.specified_iff (s : State) (r : RspReg) :
    s.specified r = true ↔ s.rspValid = true ∧ (r = .status ∨ s.rspStatus = statusOk) ∧ s.opWrites r = true ∧
      (r = .phys → s.rspUnlimited = false) ∧ ∀ m, r = .bytes m → m.val < s.rspLen.toNat := by
  cases r <;> simp [State.specified, State.opWrites, and_assoc]

/-- The first register read decides whether the read is a fault, when it has no value (10_state.md R37). -/
theorem State.badRead_of_not_specified {s : State} {r : RspReg} {rest : List RspReg} (hr : s.inp.rspRead = r :: rest)
    (h : ¬s.specified r = true) : s.badRead = some r := by
  simp [State.badRead, hr, h]

theorem State.badRead_of_specified {s : State} {r : RspReg} (hr : s.inp.rspRead = [r]) (hrst : s.inp.rst = false)
    (h : s.specified r = true) : s.badRead = none := by
  simp [State.badRead, hr, hrst, h]

theorem step_of_badRead {s : State} {r : RspReg} (hw : s.cfg.wellFormed = true) (h : s.badRead = some r) :
    step s = .fault (.unspecifiedResponse r) := by
  simp [step, blockStep, hw, h]

/-- The fault of a read is raised for reads alone. -/
theorem step_ne_unspecified {s : State} (hread : s.badRead = none) (r : RspReg) : step s ≠ .fault (.unspecifiedResponse r) := by
  intro h
  obtain ⟨-, hs⟩ | ⟨-, r', hr', -⟩ | ⟨-, -, -, hs⟩ | ⟨-, hs⟩ := step_cases s
  · rw [h] at hs; cases hs
  · rw [hread] at hr'; cases hr'
  · rw [h] at hs; cases hs
  · obtain ⟨v, hf, -⟩ | ⟨hf, -⟩ := fsmStep_moves s <;> rw [h, hf] at hs <;> cases hs

/-- Settles O39: the first register read faults exactly when it has no value, and each clause denies or grants one condition of
`specified_iff`. -/
theorem unspecifiedReadsFault : Obligations.UnspecifiedReadsFault := by
  intro s r rest hw hr
  have faults (h : ¬s.specified r = true) : step s = .fault (.unspecifiedResponse r) :=
    step_of_badRead hw (State.badRead_of_not_specified hr h)
  have reads (hrest : rest = []) (hrst : s.inp.rst = false) (h : s.specified r = true) (r' : RspReg) :
      step s ≠ .fault (.unspecifiedResponse r') :=
    step_ne_unspecified (State.badRead_of_specified (hrest ▸ hr) hrst h) r'
  rw [State.specified_iff] at faults reads
  refine ⟨fun hv => faults ?_, fun hne hst => faults ?_, fun i hd hwr => faults ?_, fun hp hu => faults ?_,
    fun m hm hlen => faults ?_, fun i hd hwr hv hst hu hlen hrest hrst => reads hrest hrst ?_,
    fun hs hv hrest hrst => reads hrest hrst ?_⟩
  · rintro ⟨hv', -⟩
    simp [hv] at hv'
  · rintro ⟨-, hs | hok, -⟩
    · exact hne hs
    · exact hst hok
  · rintro ⟨-, -, hwr', -⟩
    simp [State.opWrites_eq hd, hwr] at hwr'
  · rintro ⟨-, -, -, hu', -⟩
    simp [hu' hp] at hu
  · rintro ⟨-, -, -, -, hlen'⟩
    exact absurd (hlen' m hm) (Nat.not_lt.2 hlen)
  · exact ⟨hv, .inr hst, State.opWrites_eq hd r ▸ hwr, hu, hlen⟩
  · subst hs
    exact ⟨hv, .inl rfl, rfl, by simp, by simp⟩

/-! ### The legal configurations -/

/-- A registry entry is legal when its width is and its descriptor obeys 41_conversion.md R131 (10_state.md R40 items 3 and 4). -/
theorem entry_wellFormed_iff (e : Entry) :
    e.wellFormed = true ↔ (1 ≤ e.width ∧ e.width ≤ 22) ∧
      (∀ K maxV sent, e.conv = .motion K maxV sent →
        0 < K ∧ maxV ≤ 2 ^ e.width - 1 ∧ ∀ p, sent = some p → p.value ≤ 2 ^ e.width - 1) ∧
      ∀ K B, e.conv = .linear K B → 0 < K := by
  rw [Entry.wellFormed, Bool.and_eq_true, widthValid_iff]
  refine and_congr_right fun _ => ?_
  cases e.conv with
  | identity => simp [ConvDescriptor.wellFormed]
  | motion K maxV sent => cases sent <;> simp [ConvDescriptor.wellFormed, and_assoc]
  | linear K B => simp [ConvDescriptor.wellFormed]

/-- A sub-field is legal when its register is known and holds it (10_state.md R40 item 5). -/
theorem subfieldFits_iff (c : Config) (f : SubField) :
    c.subfieldFits f = true ↔ ∃ e, c.lookup f.reg = some e ∧ 1 ≤ f.fw ∧ f.off + f.fw ≤ e.width := by
  unfold Config.subfieldFits
  cases c.lookup f.reg <;> simp

/-- The status register must be known and reach the busy bit as soon as a position has no busy line (10_state.md R40 item 6). -/
theorem statusServes_iff (c : Config) :
    c.statusServes = true ↔
      ((∃ k, k < c.n ∧ c.hasBusyLine k = false) → ∃ e, c.lookup c.statusReg = some e ∧ 1 < e.width) := by
  have hlines : (List.range c.n).all c.hasBusyLine = true ↔ ¬∃ k, k < c.n ∧ c.hasBusyLine k = false := by simp
  rw [Config.statusServes, Bool.or_eq_true, hlines, imp_iff_not_or]
  refine or_congr_right ?_
  cases c.lookup c.statusReg with
  | none => simp
  | some e =>
    simp only [Option.some.injEq, exists_eq_left']
    exact decide_eq_true_iff

/-- Settles O40: the seven conditions one by one, each by what its check means. -/
theorem illFormedConfigurationIsRefused : Obligations.IllFormedConfigurationIsRefused := by
  refine ⟨fun s hw => ?_, fun c => ?_⟩
  · simp [step, blockStep, hw]
  · simp only [Config.wellFormed_iff, List.Nodup, List.pairwise_map, entry_wellFormed_iff, subfieldFits_iff, statusServes_iff,
      forall_and, and_assoc]

/-! ### Reset -/

/-- Settles O48: while no response is held no response register has a value, and the other elements are what
`State.reset` writes. -/
theorem resetValues : Obligations.ResetValues :=
  ⟨rfl, rfl, rfl, rfl, rfl, rfl, rfl, rfl, fun _ => rfl⟩

theorem default_wellFormed : Config.default.wellFormed = true := by decide +kernel

/-- Settles O52: reset holds no request, and its configuration, evaluated, is legal. -/
theorem resetSatisfiesInvariant : Obligations.ResetSatisfiesInvariant :=
  State.inv_of_idle default_wellFormed rfl rfl rfl rfl ⟨rfl, rfl, rfl⟩

end Sys2Proof.Machine
end

section
/-! PROOFS. The encodings (30_encoding.md): what the two decoders read from an encoded instruction (R80 to R82, R86), which requests
are an IllegalOperation and which fields a request is decoded from (R83, R84), the frame lengths a command byte tells (R90), and
the step that runs a placed word. -/

namespace Sys2Proof

/-! ### Decoding an encoded instruction -/

/-- A request word decodes as the fields it was made of (30_encoding.md R80). -/
theorem decodeRequest_requestWord (op : BitVec 4) (reg : RegId) (fld : FieldId) (wl : BitVec 5) (pos : Pos) (val : Word32)
    (phys : Word64) :
    decodeRequest (requestWord op reg fld wl pos val) phys
      = decodeFields ⟨op, reg, fld, wl, pos, 0#6, val, ⟨phys.extractLsb' 0 32, phys.extractLsb' 32 32⟩⟩ := by
  rw [decodeRequest, ofWords_requestWord]

/-- The request operations of 30_encoding.md R82 decode from their words, whatever the wire bytes. -/
theorem decodeEncoded_encode_request (wc : WireCodes) {i : Instr} (hi : i.isWire = false) :
    decodeEncoded wc (encode wc i) = .ok i := by
  cases i with
  | wireNop | wireCmdSet | wireCmdGet => cases hi
  | convert _ phys | setParam _ _ phys =>
    rw [encode, decodeEncoded, decodeRequest_requestWord, Phys.word_halves]
    rfl
  | lookup | invert | encode | decode | setRaw | getParam | xferFrame | setSubfield | getSubfield | busy =>
    rw [encode, decodeEncoded, decodeRequest_requestWord]
    rfl

/-- A search of the ids for a byte finds the one id that has it. -/
theorem find?_allRegIds {f : RegId → Byte} {id : RegId} (hu : ∀ k, f k = f id → k = id) :
    (allRegIds.find? fun k => f k == f id) = some id := by
  cases h : allRegIds.find? fun k => f k == f id with
  | none => exact absurd (beq_self_eq_true _) (List.find?_eq_none.1 h id (mem_allRegIds id))
  | some k =>
    have hk : (f k == f id) = true := List.find?_some (p := fun k => f k == f id) h
    rw [hu k (eq_of_beq hk)]

/-- A set command byte decodes to its command when neither the no-operation byte nor another set command has it. -/
theorem decodeWire_set {wc : WireCodes} {id : RegId} (hnop : wc.set id ≠ wc.nop) (hu : ∀ k, wc.set k = wc.set id → k = id) :
    decodeWire wc (wc.set id) = .ok (.wireCmdSet id) := by
  rw [decodeWire, if_neg hnop, find?_allRegIds hu]

/-- A get command byte decodes to its command when neither the no-operation byte nor a set command nor another get command has
it. -/
theorem decodeWire_get {wc : WireCodes} {id : RegId} (hnop : wc.get id ≠ wc.nop) (hset : ∀ k, wc.set k ≠ wc.get id)
    (hu : ∀ k, wc.get k = wc.get id → k = id) : decodeWire wc (wc.get id) = .ok (.wireCmdGet id) := by
  have hnone : (allRegIds.find? fun k => wc.set k == wc.get id) = none :=
    List.find?_eq_none.2 fun k _ hk => hset k (eq_of_beq hk)
  rw [decodeWire, if_neg hnop, hnone, find?_allRegIds hu]

theorem wellFormedFor_wireCmdSet {wc : WireCodes} {id : RegId} :
    (Instr.wireCmdSet id).wellFormedFor wc = true ↔ wc.set id ≠ wc.nop ∧ ∀ k, wc.set k = wc.set id → k = id := by
  simp [Instr.wellFormedFor, mem_allRegIds, ← imp_iff_not_or]

theorem wellFormedFor_wireCmdGet {wc : WireCodes} {id : RegId} :
    (Instr.wireCmdGet id).wellFormedFor wc = true ↔
      wc.get id ≠ wc.nop ∧ (∀ k, wc.set k ≠ wc.get id) ∧ ∀ k, wc.get k = wc.get id → k = id := by
  simp [Instr.wellFormedFor, mem_allRegIds, ← imp_iff_not_or, and_assoc]

/-- Settles O1: a request's fields are read back from its word, and a wire byte that no earlier search of the decoder finds is
found under its own id. -/
theorem decodeEncodeRoundTrip : Obligations.DecodeEncodeRoundTrip := by
  intro wc i hwf
  cases i with
  | wireNop => exact if_pos rfl
  | wireCmdSet id =>
    obtain ⟨hnop, hu⟩ := wellFormedFor_wireCmdSet.1 hwf
    exact decodeWire_set hnop hu
  | wireCmdGet id =>
    obtain ⟨hnop, hset, hu⟩ := wellFormedFor_wireCmdGet.1 hwf
    exact decodeWire_get hnop hset hu
  | _ => exact decodeEncoded_encode_request wc rfl

/-- Settles O4: the decoders evaluated on nine words. -/
theorem writtenOutWordsDecode : Obligations.WrittenOutWordsDecode := by
  unfold Obligations.WrittenOutWordsDecode
  decide

theorem decodeTableWord_eq_some {nbits w : Nat} {i : Instr} :
    decodeTableWord nbits w = some i ↔ decodeEncoded WireCodes.table (tableWords nbits w) = .ok i := by
  rw [decodeTableWord]
  cases decodeEncoded WireCodes.table (tableWords nbits w) <;> simp [Except.toOption]

/-! ### Requests that decode to no operation -/

theorem decodeFields_of_rsv {r : Request} (h : r.rsv ≠ 0#6) : decodeFields r = .error .reservedBitsSet := if_pos h

/-- A reserved code decodes to no operation, whatever `REQ[31:26]` holds (30_encoding.md R83, R84). -/
theorem decodeFields_of_reserved {r : Request} (h : r.op ∈ [0x0#4, 0xD#4, 0xE#4, 0xF#4]) :
    ∃ why, decodeFields r = .error why := by
  by_cases hrsv : r.rsv = 0#6
  · refine ⟨.reservedOperation, ?_⟩
    simp only [List.mem_cons, List.not_mem_nil, or_false] at h
    obtain hop | hop | hop | hop := h <;> simp [decodeFields, hrsv, hop]
  · exact ⟨_, decodeFields_of_rsv hrsv⟩

end Sys2Proof

namespace Sys2Proof.Machine

/-! ### The step and the word it decodes -/

theorem step_of_addressing {s : State} (hr : s.Ready) (hfsm : s.fsm = .addressing) : step s = advance (addressingStep s) := by
  rw [step_of_ready hr, fsmStep, hfsm]

/-- A request that decodes to no operation is an IllegalOperation, entered in ADDRESSING (43_chain.md R202). -/
theorem step_of_decodeFields_error {s : State} {why : DecodeError} (hr : s.Ready) (hfsm : s.fsm = .addressing)
    (hd : decodeFields s.req = .error why) : step s = .next (s.raise .illegalOperation).nextInputs := by
  rw [step_of_addressing hr hfsm, addressingStep, hd, advance]

/-- A request that decodes to an operation runs it in ADDRESSING (43_chain.md R202). -/
theorem step_of_decodeFields_ok {s : State} {i : Instr} (hr : s.Ready) (hfsm : s.fsm = .addressing)
    (hd : decodeFields s.req = .ok i) : step s = advance (exec i s) := by
  rw [step_of_addressing hr hfsm, addressingStep, hd]

/-- A slot's byte that decodes to a wire instruction runs it in SHIFTING (43_chain.md R205, log entry 12). -/
theorem step_of_decodeWire_ok {s : State} {i : Instr} (hr : s.Ready) (hfsm : s.fsm = .shifting)
    (hd : decodeWire s.cfg.wire s.slotByte = .ok i) : step s = advance (exec i s) := by
  simp only [step_of_ready hr, fsmStep, hfsm, shiftingStep, hd]

/-- Settles O3: a reserved code is a decoding error, and what the step then does is the error entry alone. -/
theorem reservedCodesAreIllegal : Obligations.ReservedCodesAreIllegal := by
  intro s hr hfsm hop
  obtain ⟨why, hd⟩ := decodeFields_of_reserved hop
  exact step_of_decodeFields_error hr hfsm hd

/-- Settles O2: the reserved bits are the first check of the decoder, and in the case of each operation code the decoder reads only
fields that `fieldsRead` gives the code. -/
theorem unreadFieldsAreIgnored : Obligations.UnreadFieldsAreIgnored := by
  refine ⟨fun s hr hfsm hrsv => step_of_decodeFields_error hr hfsm (decodeFields_of_rsv hrsv), ?_⟩
  rintro ⟨op, reg, fld, wl, pos, rsv, val, phys⟩ ⟨op', reg', fld', wl', pos', rsv', val', phys'⟩ hop hrsv hreg hfld
    hwl hpos hval hphys
  dsimp only at *
  subst hop hrsv
  by_cases h0 : rsv = 0#6
  · simp only [decodeFields, h0, ne_eq, not_true_eq_false, if_false]
    split <;> simp_all [fieldsRead]
  · rw [decodeFields_of_rsv h0, decodeFields_of_rsv h0]

/-! ### A placed word -/

theorem State.place_ready {s : State} (hw : s.cfg.wellFormed = true) (e : Encoded) : (s.place e).Ready := by
  cases e <;> exact ⟨hw, rfl, rfl⟩

/-- A placed wire byte is the next slot's: its target is the position whose slot comes first. -/
theorem State.slotByte_placeWireByte {s : State} (hw : s.cfg.wellFormed = true) (b : Byte) :
    (s.placeWireByte b).slotByte = b := by
  obtain ⟨⟨hn, hn'⟩, -⟩ := (Config.wellFormed_iff _).1 hw
  have hlt : s.cfg.slotpos 0 < 256 := (slotpos_slotpos hn).1.trans_le hn'
  have hpos : (s.placeWireByte b).req.pos = BitVec.ofNat 8 (s.cfg.slotpos 0) :=
    congrArg Request.pos (ofWords_requestWord 0x9 0 0 1 _ (b ++ 0#24) 0)
  have htarget : s.cfg.slotpos 0 = (s.placeWireByte b).req.pos.toNat := by
    rw [hpos, BitVec.toNat_ofNat, Nat.mod_eq_of_lt hlt]
  have hframe : (s.placeWireByte b).frame.getD 0 0 = b := rfl
  exact (if_pos htarget).trans hframe

/-- A placed word runs in the next step, under any wire bytes (log entry 8). -/
theorem step_place {s : State} {e : Encoded} {i : Instr} (hw : s.cfg.wellFormed = true)
    (hd : decodeEncoded s.cfg.wire e = .ok i) : step (s.place e) = advance (exec i (s.place e)) := by
  have hr := State.place_ready hw e
  cases e with
  | request req phys => exact step_of_decodeFields_ok hr rfl hd
  | wireByte b => exact step_of_decodeWire_ok hr rfl ((State.slotByte_placeWireByte hw b).symm ▸ hd)

/-- Settles O7: a placed request is the one that ADDRESSING decodes, and a placed wire byte is the one that the first slot carries;
the wire bytes of the configuration are the opcode table's. -/
theorem placedWordRunsNext : Obligations.PlacedWordRunsNext := by
  intro s nbits w i hw hwire hd
  exact step_place hw (hwire ▸ decodeTableWord_eq_some.1 hd)

/-! ### Frame lengths -/

/-- A command byte tells a frame's length exactly when it has one length (30_encoding.md R90, log entry 19). -/
theorem frameLengthOf_eq_some {c : Config} {b : Byte} {n : Nat} :
    frameLengthOf c b = some n ↔ n ∈ frameLengths c b ∧ ∀ m ∈ frameLengths c b, m = n := by
  unfold frameLengthOf
  cases frameLengths c b with
  | nil => simp
  | cons m rest =>
    simp only [List.all_eq_true, beq_iff_eq, Option.ite_none_right_eq_some, Option.some.injEq]
    constructor
    · rintro ⟨hrest, rfl⟩
      exact ⟨List.mem_cons_self, List.forall_mem_cons.2 ⟨rfl, hrest⟩⟩
    · rintro ⟨-, hall⟩
      obtain ⟨rfl, hrest⟩ := List.forall_mem_cons.1 hall
      exact ⟨hrest, rfl⟩

/-- Settles O59: the byte tells the lengths of the registered ids it is the command byte of, and a set or get frame of a register
has its register's length. -/
theorem commandByteTellsFrameLength : Obligations.CommandByteTellsFrameLength := by
  refine ⟨fun c id e he => ⟨fun r => ?_, ?_⟩, fun c b n => ⟨mem_frameLengths, frameLengthOf_eq_some⟩⟩
  · exact mem_frameLengths.2 ⟨id, e, he, .inl rfl, setFrame_length c id e.width r⟩
  · exact mem_frameLengths.2 ⟨id, e, he, .inr rfl, getFrame_length c id e.width⟩

end Sys2Proof.Machine
end

section
/-! PROOFS. The registry (40_registry.md): what a register's entry lets an operation do, by its width (R112) and its access mode
(R113), and LOOKUP's answer (R114). -/

namespace Sys2Proof

/-! ### Operation codes -/

/-- The operation code of a request operation (30_encoding.md R82); a wire byte has none. -/
def Instr.opCode : Instr → Option (BitVec 4)
  | .lookup _ => some 0x1
  | .convert _ _ => some 0x2
  | .invert _ _ => some 0x3
  | .encode _ _ => some 0x4
  | .decode _ _ => some 0x5
  | .setParam _ _ _ => some 0x6
  | .setRaw _ _ _ => some 0x7
  | .getParam _ _ => some 0x8
  | .xferFrame _ _ _ => some 0x9
  | .setSubfield _ _ _ _ => some 0xA
  | .getSubfield _ _ _ => some 0xB
  | .busy _ => some 0xC
  | .wireNop | .wireCmdSet _ | .wireCmdGet _ => none

/-- A request that decodes to an operation has no reserved bit set, and the operation's code (30_encoding.md R82, R84). -/
theorem rsv_and_op_of_decodeFields {r : Request} {i : Instr} (h : decodeFields r = .ok i) :
    r.rsv = 0#6 ∧ i.opCode = some r.op := by
  unfold decodeFields at h
  split at h
  · cases h
  · next hrsv =>
    refine ⟨not_not.1 hrsv, ?_⟩
    split at h <;> cases h <;> simp [Instr.opCode, *]

theorem decodeFields_eq_lookup {r : Request} : decodeFields r = .ok (.lookup r.reg) ↔ r.rsv = 0#6 ∧ r.op = 0x1#4 := by
  constructor
  · intro h
    obtain ⟨hrsv, hop⟩ := rsv_and_op_of_decodeFields h
    exact ⟨hrsv, (Option.some.inj hop).symm⟩
  · rintro ⟨hrsv, hop⟩
    simp [decodeFields, hrsv, hop]

end Sys2Proof

namespace Sys2Proof.Machine

/-! ### Checks with a known outcome -/

section

variable {α : Type} {s : State} {checks : Except ErrCode α} {go : α → State}

theorem settle_of_error {e : ErrCode} (h : checks = .error e) : settle s checks go = .next (s.raise e) := by
  rw [h, settle]

theorem settle_of_ok {a : α} (h : checks = .ok a) : settle s checks go = .next (go a) := by
  rw [h, settle]

end

/-- A check that passes hands its result to the checks after it. -/
theorem bind_of_ok {α β : Type} {x : Except ErrCode α} {f : α → Except ErrCode β} {a : α} (h : x = .ok a) :
    (x >>= f) = f a := by
  rw [h]
  rfl

/-- A check that fails is the outcome of all. -/
theorem bind_of_error {α β : Type} {x : Except ErrCode α} {f : α → Except ErrCode β} {e : ErrCode} (h : x = .error e) :
    (x >>= f) = .error e := by
  rw [h]
  rfl

section

variable {c : Config} {reg : RegId} {e : Entry}

theorem checkRegister_of_unknown (h : c.lookup reg = none) : checkRegister c reg = .error .unknownRegister := by
  simp [checkRegister, h]

theorem checkRegister_of_width (h : c.lookup reg = some e) (hw : ¬(1 ≤ e.width ∧ e.width ≤ 22)) :
    checkRegister c reg = .error .invalidWidth := by
  simp [checkRegister, h, mt (widthValid_iff e.width).1 hw]

theorem checkRegister_of_known (h : c.lookup reg = some e) (hw : 1 ≤ e.width ∧ e.width ≤ 22) :
    checkRegister c reg = .ok e :=
  checkRegister_eq_ok.2 ⟨h, (widthValid_iff e.width).2 hw⟩

/-- A legal configuration gives every known register a legal width (10_state.md R40 item 3). -/
theorem width_of_lookup (hc : c.wellFormed = true) (h : c.lookup reg = some e) : 1 ≤ e.width ∧ e.width ≤ 22 := by
  obtain ⟨-, -, hentries, -⟩ := (Config.wellFormed_iff c).1 hc
  exact ((entry_wellFormed_iff e).1 (hentries e (List.mem_of_find?_eq_some h))).1

/-- A legal configuration keeps every known sub-field inside its register (10_state.md R40 item 5). -/
theorem fits_of_subfield {fld : FieldId} {f : SubField} (hc : c.wellFormed = true) (h : c.lookup reg = some e)
    (hf : c.subfield reg fld = some f) : f.off + f.fw ≤ e.width := by
  obtain ⟨-, -, -, hfields, -⟩ := (Config.wellFormed_iff c).1 hc
  have hkey : f.reg = reg ∧ f.fid = fld := by simpa [Config.subfield] using List.find?_some hf
  obtain ⟨e', he', -, hfit⟩ := (subfieldFits_iff c f).1 (hfields f (List.mem_of_find?_eq_some hf))
  rw [hkey.1, h] at he'
  cases he'
  exact hfit

/-- A read-only register may not be set, wherever in the chain it is (40_registry.md R113). -/
theorem position_then_writable_of_ro {β : Type} {pos : Pos} {f : Unit → Except ErrCode β} (hp : pos.toNat < c.n)
    (hro : e.access = .ro) :
    (checkPosition c pos >>= fun _ => checkWritable e >>= f) = .error .readOnlyRegister := by
  have hwritable : checkWritable e = .error .readOnlyRegister := by simp [checkWritable, hro]
  rw [bind_of_ok (checkPosition_eq_ok.2 hp), bind_of_error hwritable]

end

/-! ### LOOKUP and the access modes -/

theorem accessBit_eq (a : Access) : accessBit a = if a = .ro then 1 else 0 := by cases a <;> rfl

/-- Settles O8: the outcome of the registry check decides, and the bit that LOOKUP answers is 1 for a read-only register. -/
theorem lookupAnswersWidthAndAccess : Obligations.LookupAnswersWidthAndAccess := by
  refine ⟨fun r => decodeFields_eq_lookup, fun reg s => ⟨fun h => settle_of_error (checkRegister_of_unknown h), fun e he =>
    ⟨fun hw => settle_of_error (checkRegister_of_width he hw), fun hw => ?_⟩⟩⟩
  rw [← accessBit_eq]
  exact settle_of_ok (checkRegister_of_known he hw)

/-- Settles O37: in a legal configuration a known register, a known field of it and a position of the chain pass their checks, and
so the access mode is the check that decides. -/
theorem readOnlyRegistersAreNotSet : Obligations.ReadOnlyRegistersAreNotSet := by
  intro s pos reg e hc he hp
  have hwidth := width_of_lookup hc he
  have hreg : checkRegister s.cfg reg = .ok e := checkRegister_of_known he hwidth
  refine ⟨fun hro => ⟨fun phys => ?_, fun val => ?_, fun fld f val hf => ?_⟩, fun hrw val => ?_, ?_⟩
  · exact settle_of_error ((bind_of_ok hreg).trans (position_then_writable_of_ro hp hro))
  · exact settle_of_error ((bind_of_ok hreg).trans (position_then_writable_of_ro hp hro))
  · have hfield : checkField s.cfg reg fld = .ok (e, f) :=
      checkField_eq_ok.2 ⟨he, hf, (widthValid_iff e.width).2 hwidth, fits_of_subfield hc he hf⟩
    exact settle_of_error ((bind_of_ok hfield).trans (position_then_writable_of_ro hp hro))
  · exact ⟨_, settle_of_ok (setRawOperands_eq_ok.2 ⟨hreg, hp, hrw, rfl⟩), rfl⟩
  · exact ⟨_, settle_of_ok (getParamOperands_eq_ok.2 ⟨hreg, hp⟩), rfl⟩

end Sys2Proof.Machine
end

section
/-! PROOFS. The conversion functions (41_conversion.md): clamping (00_scope.md R10) and rounding (R9) as monotone maps that keep the
integers of the range, what each kind of descriptor converts a value to (R132 to R135), and the laws of R138 to R140. -/

namespace Sys2Proof.Machine

/-! ### Clamping -/

section

variable {x y lo hi : Int}

theorem clamp_eq_max_min (h : lo ≤ hi) : clamp x lo hi = max lo (min x hi) := by
  unfold clamp
  split_ifs <;> omega

theorem clamp_mem (h : lo ≤ hi) : lo ≤ clamp x lo hi ∧ clamp x lo hi ≤ hi := by
  rw [clamp_eq_max_min h]
  exact ⟨le_max_left _ _, max_le h (min_le_right _ _)⟩

theorem clamp_mono (h : lo ≤ hi) (hxy : x ≤ y) : clamp x lo hi ≤ clamp y lo hi := by
  rw [clamp_eq_max_min h, clamp_eq_max_min h]
  exact max_le_max_left _ (min_le_min_right _ hxy)

theorem clamp_of_mem (hlo : lo ≤ x) (hhi : x ≤ hi) : clamp x lo hi = x := by
  rw [clamp_eq_max_min (hlo.trans hhi), min_eq_left hhi, max_eq_right hlo]

theorem clamp_of_le (h : lo ≤ hi) (hx : hi ≤ x) : clamp x lo hi = hi := by
  rw [clamp_eq_max_min h, min_eq_right hx, max_eq_right h]

end

/-- A register of any width holds 0. -/
theorem registerMax_nonneg (w : Nat) : (0 : Int) ≤ 2 ^ w - 1 := sub_nonneg.2 (one_le_pow₀ one_le_two)

/-- The greatest value of a `w`-bit register as an integer bounds every natural that 41_conversion.md R131 lets stand in it. -/
theorem natCast_le_registerMax {n w : Nat} (h : n ≤ 2 ^ w - 1) : (n : Int) ≤ 2 ^ w - 1 := by
  have hpow : n + 1 ≤ 2 ^ w := Nat.add_le_of_le_sub Nat.one_le_two_pow h
  exact le_sub_iff_add_le.2 (mod_cast hpow)

/-! ### Rounding -/

/-- On each side of zero rounding is a monotone floor, and the two sides meet at 0. -/
theorem roundHa_mono : Monotone roundHa := by
  intro x y hxy
  rcases lt_or_ge x 0 with hx | hx
  · rcases lt_or_ge y 0 with hy | hy
    · rw [roundHa_of_neg hx, roundHa_of_neg hy]
      exact neg_le_neg (Int.floor_mono (by linarith))
    · rw [roundHa_of_neg hx, roundHa_of_nonneg hy]
      have hleft : 0 ≤ ⌊-x + 1 / 2⌋ := Int.floor_nonneg.2 (by linarith)
      have hright : 0 ≤ ⌊y + 1 / 2⌋ := Int.floor_nonneg.2 (by linarith)
      omega
  · rw [roundHa_of_nonneg hx, roundHa_of_nonneg (hx.trans hxy)]
    exact Int.floor_mono (by linarith)

@[simp] theorem roundHa_intCast (r : Int) : roundHa (r : Rat) = r := by
  have hhalf : ⌊(1 / 2 : Rat)⌋ = 0 := by norm_num
  rcases lt_or_ge r 0 with hr | hr
  · rw [roundHa_of_neg (Int.cast_lt_zero.2 hr), ← Int.cast_neg, Int.floor_intCast_add, hhalf]
    omega
  · rw [roundHa_of_nonneg (Int.cast_nonneg hr), Int.floor_intCast_add, hhalf, add_zero]

/-- From one half below a positive integer on, a value rounds to that integer or more. -/
theorem le_roundHa {n : Int} {x : Rat} (hn : 0 < n) (h : (n : Rat) - 1 / 2 ≤ x) : n ≤ roundHa x := by
  have hone : (1 : Rat) ≤ n := by exact_mod_cast hn
  rw [roundHa_of_nonneg (by linarith), Int.le_floor]
  linarith

/-! ### What each kind of descriptor converts a value to -/

section

variable {K : Rat} {maxV w : Nat} {sent : Option Sentinel} {v : Rat}

/-- A value that exceeds the threshold converts to the sentinel (41_conversion.md R132, R133). -/
theorem convMotion_of_exceeds {p : Sentinel} (h : p.threshold < v) : convMotion K maxV (some p) v = p.value := if_pos h

/-- A value that exceeds no threshold is scaled, rounded and clamped (41_conversion.md R132). -/
theorem convMotion_of_not_exceeds (h : ∀ p, sent = some p → v ≤ p.threshold) :
    convMotion K maxV sent v = clamp (roundHa (v * K)) 0 maxV := by
  cases sent with
  | none => rfl
  | some p => exact if_neg (h p rfl).not_gt

theorem convIdentity_intCast {r : Int} (h0 : 0 ≤ r) (h1 : r ≤ 2 ^ w - 1) : convIdentity r w = .ok r :=
  if_pos ⟨Rat.den_intCast r, h0, h1⟩

theorem convIdentity_of_not_fits (h : ¬∃ r : Int, v = r ∧ 0 ≤ r ∧ r ≤ 2 ^ w - 1) :
    convIdentity v w = .error .valueOutOfRange :=
  if_neg fun ⟨hden, h0, h1⟩ => h ⟨v.num, (Rat.coe_int_num_of_den_eq_one hden).symm, h0, h1⟩

/-- IDENTITY accepts the integers that the register holds, and no other value (41_conversion.md R135). -/
theorem convIdentity_eq_ok {r : Int} : convIdentity v w = .ok r ↔ v = r ∧ 0 ≤ r ∧ r ≤ 2 ^ w - 1 := by
  constructor
  · intro h
    by_cases hfits : ∃ r : Int, v = r ∧ 0 ≤ r ∧ r ≤ 2 ^ w - 1
    · obtain ⟨r', rfl, h0, h1⟩ := hfits
      rw [convIdentity_intCast h0 h1] at h
      cases h
      exact ⟨rfl, h0, h1⟩
    · rw [convIdentity_of_not_fits hfits] at h
      cases h
  · rintro ⟨rfl, h0, h1⟩
    exact convIdentity_intCast h0 h1

end

section

variable {e : Entry} {v : Rat}

theorem convert_of_identity (h : e.conv = .identity) : convert e v = convIdentity v e.width := by rw [convert, h]

theorem convert_of_motion {K : Rat} {maxV : Nat} {sent : Option Sentinel} (h : e.conv = .motion K maxV sent) :
    convert e v = .ok (convMotion K maxV sent v) := by rw [convert, h]

theorem convert_of_linear {K B : Rat} (h : e.conv = .linear K B) : convert e v = .ok (convLinear K B v e.width) := by
  rw [convert, h]

end

/-- A MOTION conversion lies between 0 and any bound of its maximum and its sentinel. -/
theorem convMotion_mem {K : Rat} {maxV : Nat} {sent : Option Sentinel} {v : Rat} {hi : Int} (hmax : (maxV : Int) ≤ hi)
    (hsent : ∀ p, sent = some p → (p.value : Int) ≤ hi) :
    0 ≤ convMotion K maxV sent v ∧ convMotion K maxV sent v ≤ hi := by
  by_cases h : ∀ p, sent = some p → v ≤ p.threshold
  · rw [convMotion_of_not_exceeds h]
    obtain ⟨h0, h1⟩ := clamp_mem (x := roundHa (v * K)) (Int.natCast_nonneg maxV)
    exact ⟨h0, h1.trans hmax⟩
  · push Not at h
    obtain ⟨p, rfl, hp⟩ := h
    rw [convMotion_of_exceeds hp]
    exact ⟨Int.natCast_nonneg _, hsent p rfl⟩

/-- A converted value fits its register, whatever the descriptor (41_conversion.md R140). -/
theorem convert_mem {e : Entry} {v : Rat} {r : Int} (he : e.wellFormed = true) (h : convert e v = .ok r) :
    0 ≤ r ∧ r ≤ 2 ^ e.width - 1 := by
  obtain ⟨-, hmotion, -⟩ := (entry_wellFormed_iff e).1 he
  cases hconv : e.conv with
  | identity =>
    rw [convert_of_identity hconv, convIdentity_eq_ok] at h
    exact h.2
  | motion K maxV sent =>
    rw [convert_of_motion hconv] at h
    cases h
    obtain ⟨-, hmax, hsent⟩ := hmotion K maxV sent hconv
    exact convMotion_mem (natCast_le_registerMax hmax) fun p hp => natCast_le_registerMax (hsent p hp)
  | linear K B =>
    rw [convert_of_linear hconv] at h
    cases h
    exact clamp_mem (registerMax_nonneg e.width)

/-! ### The laws of the conversions -/

/-- Settles O13: multiplying by a positive factor, adding, rounding and clamping are all non-decreasing. -/
theorem conversionsAreMonotone : Obligations.ConversionsAreMonotone := by
  intro K B maxV w v v' hK hv
  have hscaled : v * K ≤ v' * K := mul_le_mul_of_nonneg_right hv hK.le
  exact ⟨clamp_mono (Int.natCast_nonneg maxV) (roundHa_mono hscaled),
    clamp_mono (registerMax_nonneg w) (roundHa_mono (add_le_add_left hscaled B))⟩

/-- Settles O14: scaling undoes the inverse, and rounding and clamping keep an integer of the range; a MOTION value beyond the
threshold is the sentinel's own by the proviso. -/
theorem integersSurviveInversion : Obligations.IntegersSurviveInversion := by
  refine ⟨fun K maxV sent r hK h0 h1 hsent => ?_, fun K B w r hK h0 h1 => ?_, fun w r => convIdentity_intCast⟩
  · by_cases h : ∀ p, sent = some p → (r : Rat) / K ≤ p.threshold
    · rw [convMotion_of_not_exceeds h, div_mul_cancel₀ _ hK.ne', roundHa_intCast, clamp_of_mem h0 h1]
    · push Not at h
      obtain ⟨p, rfl, hp⟩ := h
      rw [convMotion_of_exceeds hp]
      exact ((hsent p rfl).resolve_left hp.not_ge).symm
  · rw [convLinear, div_mul_cancel₀ _ hK.ne', sub_add_cancel, roundHa_intCast, clamp_of_mem h0 h1]

/-- Settles O15: what is scaled to half a unit above the maximum or more rounds to an integer beyond it and is clamped to it, and
each kind of conversion stays in its register. -/
theorem conversionsSaturate : Obligations.ConversionsSaturate := by
  refine ⟨fun K maxV v _ hv => ?_, fun K B w v _ hv => ?_, fun e v r => convert_mem⟩
  · have hround : (maxV : Int) + 1 ≤ roundHa (v * K) := le_roundHa (by omega) (by push_cast; linarith)
    exact clamp_of_le (Int.natCast_nonneg maxV) (by omega)
  · have hround : (2 : Int) ^ w ≤ roundHa (v * K + B) := le_roundHa (by positivity) (mod_cast hv)
    exact clamp_of_le (registerMax_nonneg w) (by omega)

/-- Settles O12: the threshold decides between the sentinel and the scaled value, and clamping from 0 is `max` and `min`. -/
theorem motionConversionClampsAfterSentinel : Obligations.MotionConversionClampsAfterSentinel := by
  intro K maxV v
  rw [← clamp_eq_max_min (Int.natCast_nonneg maxV)]
  refine ⟨rfl, fun p => ⟨convMotion_of_exceeds, fun hv => convMotion_of_not_exceeds ?_⟩⟩
  rintro _ ⟨⟩
  exact hv

/-- Settles O58: clamping to a register's range is `max` and `min`, and a LINEAR register's conversion is never an error. -/
theorem linearConversionScalesRoundsClamps : Obligations.LinearConversionScalesRoundsClamps := by
  intro K B v w
  rw [← clamp_eq_max_min (registerMax_nonneg w)]
  refine ⟨rfl, ?_⟩
  rintro e he rfl
  exact convert_of_linear he

end Sys2Proof.Machine
end

section
/-! PROOFS. CONVERT and INVERT (41_conversion.md R136, R137): their operation codes, the outcome of their checks in order, and the
whole next state in each case of the descriptor. -/

namespace Sys2Proof

/-- An operation that reads its own fields of the request is decoded from no reserved bit and its code, and from nothing else
(30_encoding.md R82, R84). -/
theorem decodeFields_eq_ok_iff {r : Request} {i : Instr} {op : BitVec 4} (hcode : i.opCode = some op)
    (hdecodes : r.rsv = 0#6 → r.op = op → decodeFields r = .ok i) : decodeFields r = .ok i ↔ r.rsv = 0#6 ∧ r.op = op := by
  refine ⟨fun h => ?_, fun ⟨hrsv, hop⟩ => hdecodes hrsv hop⟩
  obtain ⟨hrsv, hop⟩ := rsv_and_op_of_decodeFields h
  exact ⟨hrsv, Option.some.inj (hop.symm.trans hcode)⟩

theorem decodeFields_eq_convert {r : Request} : decodeFields r = .ok (.convert r.reg r.phys) ↔ r.rsv = 0#6 ∧ r.op = 0x2#4 :=
  decodeFields_eq_ok_iff rfl fun hrsv hop => by simp [decodeFields, hrsv, hop]

theorem decodeFields_eq_invert {r : Request} : decodeFields r = .ok (.invert r.reg r.val) ↔ r.rsv = 0#6 ∧ r.op = 0x3#4 :=
  decodeFields_eq_ok_iff rfl fun hrsv hop => by simp [decodeFields, hrsv, hop]

end Sys2Proof

namespace Sys2Proof.Machine

/-! ### CONVERT -/

section

variable {reg : RegId} {phys : Phys} {s : State} {e : Entry}

theorem physValue_of_den_ne_zero (h : phys.den ≠ 0#32) :
    physValue phys = .ok ((phys.num.toInt : Rat) / (phys.den.toNat : Rat)) := if_neg h

theorem physValue_of_den_eq_zero (h : phys.den = 0#32) : physValue phys = .error .valueOutOfRange := if_pos h

/-- A known register and a denominator leave the descriptor's case split to decide (41_conversion.md R136). -/
theorem convertOperands_of_known (hreg : checkRegister s.cfg reg = .ok e) (hden : phys.den ≠ 0#32) :
    convertOperands s.cfg reg phys = convert e ((phys.num.toInt : Rat) / (phys.den.toNat : Rat)) := by
  rw [convertOperands, bind_of_ok hreg, bind_of_ok (physValue_of_den_ne_zero hden)]

theorem convertOperands_of_den_eq_zero (hreg : checkRegister s.cfg reg = .ok e) (hden : phys.den = 0#32) :
    convertOperands s.cfg reg phys = .error .valueOutOfRange := by
  rw [convertOperands, bind_of_ok hreg, bind_of_error (physValue_of_den_eq_zero hden)]

/-- CONVERT's response (41_conversion.md R136, 10_state.md R28). -/
theorem exec_convert_of_ok {r : Int} (h : convertOperands s.cfg reg phys = .ok r) :
    exec (.convert reg phys) s = .next { s with
      rspInt := BitVec.ofInt 32 r, rspStatus := 0, rspValid := true, fsm := .complete } :=
  settle_of_ok h

end

/-- Settles O9: the first check that fails is the outcome, and once register and denominator pass, the conversion by the
descriptor is. -/
theorem convertAnswersRegisterInteger : Obligations.ConvertAnswersRegisterInteger := by
  refine ⟨fun r => decodeFields_eq_convert, fun reg phys s =>
    ⟨fun h => settle_of_error (bind_of_error (checkRegister_of_unknown h)), fun e he =>
      ⟨fun hw => settle_of_error (bind_of_error (checkRegister_of_width he hw)),
        fun hw hden => settle_of_error (convertOperands_of_den_eq_zero (checkRegister_of_known he hw) hden), ?_⟩⟩⟩
  rintro hw hden v rfl
  have hops := convertOperands_of_known (checkRegister_of_known he hw) hden
  refine ⟨fun hconv r hr h0 h1 => ?_, fun hconv hnot => ?_, fun K maxV sent hconv => ?_, fun K B hconv => ?_⟩
  · exact exec_convert_of_ok ((hops.trans (convert_of_identity hconv)).trans (convIdentity_eq_ok.2 ⟨hr, h0, h1⟩))
  · exact settle_of_error ((hops.trans (convert_of_identity hconv)).trans (convIdentity_of_not_fits hnot))
  · exact exec_convert_of_ok (hops.trans (convert_of_motion hconv))
  · exact exec_convert_of_ok (hops.trans (convert_of_linear hconv))

/-! ### INVERT -/

section

variable {e : Entry} {r : Int}

theorem invert_of_identity (h : e.conv = .identity) : invert e r = some (r : Rat) := by rw [invert, h]

/-- The sentinel read back has no number (41_conversion.md R137). -/
theorem invert_of_sentinel {K : Rat} {maxV : Nat} {p : Sentinel} (h : e.conv = .motion K maxV (some p)) (hr : r = p.value) :
    invert e r = none := by
  rw [invert, h]
  exact if_pos hr

theorem invert_of_motion {K : Rat} {maxV : Nat} {sent : Option Sentinel} (h : e.conv = .motion K maxV sent)
    (hr : ∀ p, sent = some p → r ≠ p.value) : invert e r = some (r / K) := by
  rw [invert, h]
  cases sent with
  | none => rfl
  | some p => exact if_neg (hr p rfl)

theorem invert_of_linear {K B : Rat} (h : e.conv = .linear K B) : invert e r = some ((r - B) / K) := by rw [invert, h]

end

section

variable {reg : RegId} {val : Word32} {s : State} {e : Entry}

theorem invertOperands_of_out_of_range (hreg : checkRegister s.cfg reg = .ok e)
    (h : val.toInt < 0 ∨ 2 ^ e.width - 1 < val.toInt) : invertOperands s.cfg reg val = .error .valueOutOfRange := by
  rw [invertOperands, bind_of_ok hreg, if_pos h]

theorem invertOperands_of_in_range (hreg : checkRegister s.cfg reg = .ok e) (h0 : 0 ≤ val.toInt)
    (h1 : val.toInt ≤ 2 ^ e.width - 1) : invertOperands s.cfg reg val = .ok (e, val.toInt) := by
  rw [invertOperands, bind_of_ok hreg, if_neg (not_or.2 ⟨h0.not_gt, h1.not_gt⟩)]
  rfl

/-- INVERT's response with a number (41_conversion.md R137, 10_state.md R28). -/
theorem exec_invert_of_some {v : Rat} (hops : invertOperands s.cfg reg val = .ok (e, val.toInt))
    (hv : invert e val.toInt = some v) : exec (.invert reg val) s = .next { s with
      rspPhys := v, rspUnlimited := false, rspStatus := 0, rspValid := true, fsm := .complete } := by
  refine (settle_of_ok hops).trans ?_
  simp only [hv]
  rfl

/-- INVERT's response without a number: of the response fields, `rsp_unlimited` alone (41_conversion.md R137). -/
theorem exec_invert_of_none (hops : invertOperands s.cfg reg val = .ok (e, val.toInt)) (hv : invert e val.toInt = none) :
    exec (.invert reg val) s = .next { s with
      rspUnlimited := true, rspStatus := 0, rspValid := true, fsm := .complete } := by
  refine (settle_of_ok hops).trans ?_
  simp only [hv]
  rfl

end

/-- Settles O10: the first check that fails is the outcome, and for an integer that the register holds the inverse by the descriptor
is, a number or the sentinel read back. -/
theorem invertAnswersPhysicalValue : Obligations.InvertAnswersPhysicalValue := by
  refine ⟨fun r => decodeFields_eq_invert, fun reg val s =>
    ⟨fun h => settle_of_error (bind_of_error (checkRegister_of_unknown h)), fun e he =>
      ⟨fun hw => settle_of_error (bind_of_error (checkRegister_of_width he hw)),
        fun hw hout => settle_of_error (invertOperands_of_out_of_range (checkRegister_of_known he hw) hout),
        fun hw h0 h1 => ?_⟩⟩⟩
  have hops := invertOperands_of_in_range (checkRegister_of_known he hw) h0 h1
  refine ⟨fun hconv => ?_, fun K maxV p hconv hr => ?_, fun K maxV sent hconv hr => ?_, fun K B hconv => ?_⟩
  · exact exec_invert_of_some hops (invert_of_identity hconv)
  · exact exec_invert_of_none hops (invert_of_sentinel hconv hr)
  · exact exec_invert_of_some hops (invert_of_motion hconv hr)
  · exact exec_invert_of_some hops (invert_of_linear hconv)

end Sys2Proof.Machine
end

section
/-! PROOFS. The bit-field codec (42_codec.md): big-endian byte strings as numbers and back, and the codec's functions (R170, R172) as
these two with a reduction modulo `2^w`, whose bits beyond the width all lie in the first byte. -/

namespace Sys2Proof.Machine

/-! ### Big-endian numbers -/

/-- The `n` bytes of a number modulo `256^n`, most significant byte first (42_codec.md R170). -/
def bigEndianBytes (n u : Nat) : List Byte := (List.range n).map fun m => BitVec.ofNat 8 (u / 2 ^ (8 * (n - 1 - m)))

theorem encodeBytes_eq (v : Int) (w : Nat) : encodeBytes v w = bigEndianBytes (nb w) (v % 2 ^ w).toNat := rfl

@[simp] theorem bigEndian_append_singleton (bs : List Byte) (b : Byte) : bigEndian (bs ++ [b]) = bigEndian bs * 256 + b.toNat := by
  simp [bigEndian]

/-- The last byte is the number's low byte, and the bytes before it are those of the number without it. -/
theorem bigEndianBytes_succ (n u : Nat) : bigEndianBytes (n + 1) u = bigEndianBytes n (u / 256) ++ [BitVec.ofNat 8 u] := by
  have hbyte : ∀ m ∈ List.range n, u / 2 ^ (8 * (n - m)) = u / 256 / 2 ^ (8 * (n - 1 - m)) := by
    intro m hm
    have hexp : 8 * (n - m) = 8 + 8 * (n - 1 - m) := by
      have := List.mem_range.1 hm
      omega
    rw [hexp, pow_add, ← Nat.div_div_eq_div_mul]
    rfl
  simp only [bigEndianBytes, List.range_succ, List.map_append, List.map_singleton, Nat.add_sub_cancel, Nat.sub_self, mul_zero,
    pow_zero, Nat.div_one]
  congr 1
  exact List.map_congr_left fun m hm => congrArg _ (hbyte m hm)

theorem bigEndian_bigEndianBytes (n u : Nat) : bigEndian (bigEndianBytes n u) = u % 256 ^ n := by
  induction n generalizing u with
  | zero => simp [bigEndianBytes, bigEndian, Nat.mod_one]
  | succ n ih =>
    have hlow : (BitVec.ofNat 8 u).toNat = u % 256 := BitVec.toNat_ofNat u 8
    rw [bigEndianBytes_succ, bigEndian_append_singleton, ih, hlow, pow_succ', Nat.mod_mul, Nat.mul_comm, Nat.add_comm]

theorem bigEndianBytes_bigEndian (bs : List Byte) : bigEndianBytes bs.length (bigEndian bs) = bs := by
  induction bs using List.reverseRecOn with
  | nil => rfl
  | append_singleton bs b ih =>
    have hlow : BitVec.ofNat 8 (bigEndian bs * 256 + b.toNat) = b := BitVec.eq_of_toNat_eq (by simp; omega)
    have hhigh : (bigEndian bs * 256 + b.toNat) / 256 = bigEndian bs := by omega
    rw [List.length_append, List.length_singleton, bigEndianBytes_succ, bigEndian_append_singleton, hlow, hhigh, ih]

/-- The first byte is the most significant. -/
theorem bigEndian_cons (b : Byte) (bs : List Byte) : bigEndian (b :: bs) = b.toNat * 256 ^ bs.length + bigEndian bs := by
  induction bs using List.reverseRecOn with
  | nil => simp [bigEndian]
  | append_singleton bs c ih =>
    rw [← List.cons_append, bigEndian_append_singleton, ih, bigEndian_append_singleton, List.length_append,
      List.length_singleton, pow_succ]
    ring

theorem bigEndian_lt (bs : List Byte) : bigEndian bs < 256 ^ bs.length := by
  calc bigEndian bs = bigEndian bs % 256 ^ bs.length := by rw [← bigEndian_bigEndianBytes, bigEndianBytes_bigEndian]
    _ < 256 ^ bs.length := Nat.mod_lt _ (by positivity)

/-- The number that bytes make, as the sum over their places. -/
theorem bigEndian_eq_sum (bs : List Byte) :
    bigEndian bs = ((List.range bs.length).map fun m => (bs.getD m 0).toNat * 256 ^ (bs.length - 1 - m)).sum := by
  induction bs with
  | nil => rfl
  | cons b bs ih =>
    rw [bigEndian_cons, ih, List.length_cons, List.range_succ_eq_map]
    simp [Nat.sub_sub, Nat.add_comm, Function.comp_def]

/-! ### The width -/

/-- The bytes after the first hold no more than the width (00_scope.md R11). -/
theorem eight_mul_nb_sub_one_le (w : Nat) : 8 * (nb w - 1) ≤ w := by unfold nb; omega

theorem le_eight_mul_nb (w : Nat) : w ≤ 8 * nb w := by unfold nb; omega

theorem firstByteBits_le_eight (w : Nat) : w - 8 * (nb w - 1) ≤ 8 := by unfold nb; omega

/-- The first byte carries what the bytes after it leave of the width. -/
theorem two_pow_width (w : Nat) : 2 ^ w = 2 ^ (8 * (nb w - 1)) * 2 ^ (w - 8 * (nb w - 1)) := by
  rw [← pow_add, Nat.add_sub_cancel' (eight_mul_nb_sub_one_le w)]

theorem two_pow_eight_mul (n : Nat) : 2 ^ (8 * n) = 256 ^ n := pow_mul 2 8 n

theorem checkWidth_of_valid {w : BitVec 5} (h : 1 ≤ w.toNat ∧ w.toNat ≤ 22) : checkWidth w = .ok w.toNat :=
  if_pos ((widthValid_iff _).2 h)

theorem checkWidth_of_invalid {w : BitVec 5} (h : ¬(1 ≤ w.toNat ∧ w.toNat ≤ 22)) : checkWidth w = .error .invalidWidth :=
  if_neg (mt (widthValid_iff _).1 h)

/-! ### Encoding -/

theorem emod_two_pow_nonneg (v : Int) (w : Nat) : 0 ≤ v % 2 ^ w := Int.emod_nonneg _ (by positivity)

theorem toNat_emod_two_pow_lt (v : Int) (w : Nat) : (v % 2 ^ w).toNat < 2 ^ w :=
  (Int.toNat_lt (emod_two_pow_nonneg v w)).2 (mod_cast Int.emod_lt_of_pos v (by positivity))

theorem encodeBytes_natCast {u w : Nat} (h : u < 2 ^ w) : encodeBytes u w = bigEndianBytes (nb w) u := by
  rw [encodeBytes_eq, Int.emod_eq_of_lt (Int.natCast_nonneg u) (mod_cast h), Int.toNat_natCast]

theorem toNat_of_getElem?_encodeBytes {v : Int} {w m : Nat} {b : Byte} (h : (encodeBytes v w)[m]? = some b) :
    b.toNat = (v % 2 ^ w).toNat / 2 ^ (8 * (nb w - 1 - m)) % 256 := by
  simp only [encodeBytes, List.getElem?_map, Option.map_eq_some_iff, List.getElem?_eq_some_iff, List.getElem_range] at h
  obtain ⟨_, ⟨-, rfl⟩, rfl⟩ := h
  exact BitVec.toNat_ofNat _ _

/-- Settles O18: a byte is the low byte of a quotient of `v mod 2^w`, and the first byte's quotient leaves only the bits of the
width that the other bytes do not carry. -/
theorem encodingIsBigEndian : Obligations.EncodingIsBigEndian := by
  intro v w _ _ m b hb
  have hbyte := toNat_of_getElem?_encodeBytes hb
  refine ⟨?_, ?_⟩
  · rw [hbyte]
    push_cast
    rw [Int.toNat_of_nonneg (emod_two_pow_nonneg v w)]
  · rintro rfl
    calc b.toNat ≤ (v % 2 ^ w).toNat / 2 ^ (8 * (nb w - 1)) := hbyte ▸ Nat.mod_le _ _
      _ < 2 ^ (w - 8 * (nb w - 1)) := Nat.div_lt_of_lt_mul (two_pow_width w ▸ toNat_emod_two_pow_lt v w)

/-- Settles O21: an encoding has `nb(w)` bytes. -/
theorem encodingLengths : Obligations.EncodingLengths := by
  intro v w
  simp only [encodeBytes_length, nb]
  omega

/-! ### Decoding -/

/-- Settles O60: the bytes make their big-endian number, of which decoding keeps the residue. -/
theorem decodingMasksBeyondWidth : Obligations.DecodingMasksBeyondWidth := by
  intro w bs _ _ hlen
  exact ⟨by rw [decodeBytes, bigEndian_eq_sum, hlen], decodeBytes_lt bs w⟩

theorem toNat_and_lowBits (b : Byte) {r : Nat} (hr : r ≤ 8) : (b &&& BitVec.ofNat 8 (2 ^ r - 1)).toNat = b.toNat % 2 ^ r := by
  have hmask : 2 ^ r - 1 < 2 ^ 8 := by
    have := Nat.pow_le_pow_right (n := 2) (by decide) hr
    omega
  rw [BitVec.toNat_and, BitVec.toNat_ofNat, Nat.mod_eq_of_lt hmask, Nat.and_two_pow_sub_one_eq_mod]

/-- Decoding masks the first byte to the width and reads the others whole (42_codec.md R172). -/
theorem decodeBytes_cons {w : Nat} {b : Byte} {rest : List Byte} (hlen : (b :: rest).length = nb w) :
    decodeBytes (b :: rest) w = bigEndian ((b &&& BitVec.ofNat 8 (2 ^ (w - 8 * (nb w - 1)) - 1)) :: rest) := by
  have hrest : rest.length = nb w - 1 := Nat.eq_sub_of_add_eq hlen
  have hsplit : 2 ^ w = 256 ^ rest.length * 2 ^ (w - 8 * (nb w - 1)) := by
    rw [hrest, ← two_pow_eight_mul, ← two_pow_width]
  have hlow : (b.toNat * 256 ^ rest.length + bigEndian rest) % 256 ^ rest.length = bigEndian rest := by
    rw [Nat.mul_add_mod', Nat.mod_eq_of_lt (bigEndian_lt rest)]
  have hhigh : (b.toNat * 256 ^ rest.length + bigEndian rest) / 256 ^ rest.length = b.toNat := by
    rw [Nat.mul_comm, Nat.mul_add_div (by positivity), Nat.div_eq_of_lt (bigEndian_lt rest), add_zero]
  rw [decodeBytes, bigEndian_cons, bigEndian_cons, toNat_and_lowBits b (firstByteBits_le_eight w), hsplit, Nat.mod_mul, hlow, hhigh]
  ring

/-! ### Round trips -/

/-- Settles O19: the bytes hold at least `w` bits of the value, and reduction modulo `2^w` keeps what is already reduced. -/
theorem codecRoundTrip : Obligations.CodecRoundTrip := by
  intro v w _ _
  have hdecode : decodeBytes (encodeBytes v w) w = (v % 2 ^ w).toNat := by
    rw [decodeBytes, encodeBytes_eq, bigEndian_bigEndianBytes, ← two_pow_eight_mul,
      Nat.mod_mod_of_dvd _ (pow_dvd_pow 2 (le_eight_mul_nb w)), Nat.mod_eq_of_lt (toNat_emod_two_pow_lt v w)]
  rw [hdecode, Int.toNat_of_nonneg (emod_two_pow_nonneg v w)]

/-- Settles O20: a decoding is the number of the masked bytes, and `nb(w)` bytes are read back from their number. -/
theorem codecReverseRoundTrip : Obligations.CodecReverseRoundTrip := by
  intro w b rest _ _ hlen
  have hmasked : encodeBytes (decodeBytes (b :: rest) w) w
      = (b &&& BitVec.ofNat 8 (2 ^ (w - 8 * (nb w - 1)) - 1)) :: rest := by
    rw [encodeBytes_natCast (decodeBytes_lt _ w), decodeBytes_cons hlen, ← hlen]
    exact bigEndianBytes_bigEndian _
  refine ⟨hmasked, fun hb => ?_⟩
  have hkept : b &&& BitVec.ofNat 8 (2 ^ (w - 8 * (nb w - 1)) - 1) = b :=
    BitVec.eq_of_toNat_eq ((toNat_and_lowBits b (firstByteBits_le_eight w)).trans (Nat.mod_eq_of_lt hb))
  rw [hmasked, hkept]

end Sys2Proof.Machine

namespace Sys2Proof

theorem decodeFields_eq_encode {r : Request} : decodeFields r = .ok (.encode r.wl r.val) ↔ r.rsv = 0#6 ∧ r.op = 0x4#4 :=
  decodeFields_eq_ok_iff rfl fun hrsv hop => by simp [decodeFields, hrsv, hop]

theorem decodeFields_eq_decode {r : Request} : decodeFields r = .ok (.decode r.wl r.val) ↔ r.rsv = 0#6 ∧ r.op = 0x5#4 :=
  decodeFields_eq_ok_iff rfl fun hrsv hop => by simp [decodeFields, hrsv, hop]

end Sys2Proof

namespace Sys2Proof.Machine

/-! ### ENCODE and DECODE -/

theorem State.getElem_overlay (old : Vector Byte 4) (bs : List Byte) (m : Fin 4) :
    (State.overlay old bs)[m] = bs[m.val]?.getD old[m] := by
  simp [State.overlay]

/-- An overlay holds each of its bytes at its place. -/
theorem State.getElem?_eq_some_overlay {old : Vector Byte 4} {bs : List Byte} {m : Fin 4} (h : m.val < bs.length) :
    bs[m.val]? = some (State.overlay old bs)[m] := by
  rw [State.getElem_overlay, List.getElem?_eq_getElem h, Option.getD_some]

/-- Beyond its bytes an overlay keeps what the buffer held (log entry 15). -/
theorem State.getElem_overlay_of_le {old : Vector Byte 4} {bs : List Byte} {m : Fin 4} (h : bs.length ≤ m.val) :
    (State.overlay old bs)[m] = old[m] := by
  rw [State.getElem_overlay, List.getElem?_eq_none h, Option.getD_none]

/-- Settles O16: the width check decides, and the response bytes are the encoding laid over the bytes held. -/
theorem encodeAnswersBytes : Obligations.EncodeAnswersBytes := by
  refine ⟨fun r => decodeFields_eq_encode, fun w v s => ⟨fun h => settle_of_error (checkWidth_of_invalid h), fun h =>
    ⟨State.overlay s.rspBytes (encodeBytes v.toInt w.toNat), fun m hm => ?_, fun m hm => ?_,
      settle_of_ok (checkWidth_of_valid h)⟩⟩⟩
  · exact State.getElem?_eq_some_overlay ((encodeBytes_length _ _).symm ▸ hm)
  · exact State.getElem_overlay_of_le ((encodeBytes_length _ _).symm ▸ hm)

/-- Settles O17: the width check decides, and the operand's first `nb(w)` bytes, at most 3, are decoded. -/
theorem decodeAnswersInteger : Obligations.DecodeAnswersInteger := by
  refine ⟨fun r => decodeFields_eq_decode, fun w bytes s =>
    ⟨fun h => settle_of_error (checkWidth_of_invalid h), fun h => ?_⟩⟩
  rw [← take_operandBytes bytes ((nb_le_three h.2).trans (by decide))]
  exact settle_of_ok (checkWidth_of_valid h)

end Sys2Proof.Machine
end

section
/-! PROOFS. One SHIFT step of the chain engine (43_chain.md R205 to R211, R214): an exchange of the current slot's byte, by how it
ends; what the step shows on the bus, captures in the echo buffer and leaves alone; and that of the inputs it reads the bus reply
alone. -/

namespace Sys2Proof.Machine

/-! ### The exchange, by how it ends -/

theorem fsmStep_of_shifting {s : State} (hfsm : s.fsm = .shifting) : fsmStep s = exchange s.slotByte s := by
  simp only [fsmStep, hfsm, shiftingStep_eq]

theorem step_of_shifting {s : State} (hr : s.Ready) (hfsm : s.fsm = .shifting) : step s = advance (exchange s.slotByte s) := by
  rw [step_of_ready hr, fsmStep_of_shifting hfsm]

/-- Chip-select between two byte-cycles, as one update (43_chain.md R208). -/
theorem State.betweenCycles_eq (s : State) : s.betweenCycles = { s with
    csAsserted := s.csAsserted || s.cfg.csReleasePerCycle, wire := s.wire ++ s.gapEvents } := by
  unfold State.betweenCycles State.gapEvents
  split <;> simp_all [State.assertCs, State.deassertCs]

section

variable {b : Byte} {s : State}

/-- A failed transfer (43_chain.md R210). -/
theorem exchange_of_failed (hok : s.inp.bus.ok = false) : exchange b s = .next { s with
    csAsserted := false, chainSuspect := true, rspStatus := 0x5, rspValid := true, fsm := .complete,
    wire := s.wire ++ [.xfer b none, .csDeassert] } := by
  simp [exchange, hok, State.busFail, State.raise, State.completeWith, State.deassertCs, ErrCode.code]

theorem exchange_of_nextSlot (hok : s.inp.bus.ok = true) (ht : s.t + 1 < s.cfg.n) :
    exchange b s = .next { s.capture b with t := s.t + 1 } := by
  rw [exchange, if_pos hok, if_pos ht]

theorem exchange_of_nextCycle (hok : s.inp.bus.ok = true) (ht : s.cfg.n ≤ s.t + 1) (hj : s.j + 1 < s.flen) :
    exchange b s = .next (State.betweenCycles { s.capture b with t := 0, j := s.j + 1 }) := by
  rw [exchange, if_pos hok, if_neg ht.not_gt, if_pos hj]

theorem exchange_of_last (hl : s.LastExchange) : exchange b s = finish (s.afterLast b) := by
  obtain ⟨hok, ht, hj⟩ := hl
  obtain ⟨hbad, -⟩ | ⟨-, ht', -⟩ | ⟨-, -, hj', -⟩ | ⟨-, hx⟩ := exchange_cases b s
  · simp [hok] at hbad
  · exact absurd ht' ht.not_gt
  · exact absurd hj' hj.not_gt
  · exact hx

end

/-- Settles O6: a byte that decodes is dispatched on, and whatever a byte decodes to, the step is its exchange. -/
theorem stepExchangesSlotByte : Obligations.StepExchangesSlotByte := fun _ hr hfsm =>
  ⟨fun _ => step_of_decodeWire_ok hr hfsm, fun _ => step_of_shifting hr hfsm⟩

/-- Settles O33: the step is an exchange, and the exchange fails. -/
theorem busFailureEndsTransaction : Obligations.BusFailureEndsTransaction := by
  intro s hr hfsm hok
  rw [step_of_shifting hr hfsm, exchange_of_failed hok, advance]

/-- Settles O29: a wire instruction is the exchange of its byte, in each of its four ends. -/
theorem wireBytesExchangeOneSlot : Obligations.WireBytesExchangeOneSlot := by
  intro i b s hb
  rw [exec_wire hb]
  refine ⟨exchange_of_failed, fun hok ht => ?_, fun hok ht hj hcs => ?_, fun hl hn => ?_⟩
  · rw [exchange_of_nextSlot hok ht]
    rfl
  · rw [exchange_of_nextCycle hok ht hj, State.betweenCycles_eq]
    simp [State.capture, State.gapEvents, hcs]
  · rw [exchange_of_last hl]
    obtain ⟨u, hf, hu⟩ | ⟨bs, hf, -, hop, -⟩ | ⟨-, hnone⟩ := finish_cases (s.afterLast b)
    · exact ⟨u, hf, .inl hu.fsm_eq⟩
    · exact ⟨_, hf, .inr ⟨rfl, hop, rfl⟩⟩
    · exact absurd hn (hnone _)

/-! ### What an exchange leaves alone -/

namespace State.OnlyResponds

variable {s t : State} (h : s.OnlyResponds t)
include h

theorem inp_eq : t.inp = s.inp := (congrArg State.inp h :)
theorem script_eq : t.script = s.script := (congrArg State.script h :)
theorem tick_eq : t.tick = s.tick := (congrArg State.tick h :)
theorem echo_eq : t.echo = s.echo := (congrArg State.echo h :)
theorem wire_eq : t.wire = s.wire := (congrArg State.wire h :)

end State.OnlyResponds

theorem encode_of_isWire (wc : WireCodes) {i : Instr} (h : i.isWire = true) : ∃ b, encode wc i = .wireByte b := by
  cases i with
  | wireNop | wireCmdSet | wireCmdGet => exact ⟨_, rfl⟩
  | _ => cases h

/-- Settles O30: none of the ends of an exchange writes the named elements, and one that stays in SHIFTING has not responded. -/
theorem exchangeFrame : Obligations.ExchangeFrame := by
  intro i s u hi hu
  obtain ⟨b, hb⟩ := encode_of_isWire s.cfg.wire hi
  rw [exec_wire hb] at hu
  obtain ⟨-, hx⟩ | ⟨-, -, hx⟩ | ⟨-, -, -, hx⟩ | ⟨-, hx⟩ := exchange_cases b s <;> rw [hx] at hu
  · cases hu
    refine ⟨rfl, rfl, rfl, rfl, rfl, rfl, fun hsame hfsm => ?_⟩
    rw [hfsm] at hsame
    cases hsame
  · cases hu
    simp
  · cases hu
    simp
  · obtain ⟨v, hf, hv⟩ | ⟨bs, hf, -⟩ | ⟨hf, -⟩ := finish_cases (s.afterLast b) <;> rw [hf] at hu <;> cases hu
    · refine ⟨hv.cfg_eq, hv.owner_eq, hv.req_eq, hv.inp_eq, hv.script_eq, hv.tick_eq, fun hsame hfsm => ?_⟩
      rw [hv.fsm_eq, hfsm] at hsame
      cases hsame
    · simp [State.afterLast]

/-- A move out of a state in SHIFTING shows one exchange, of the slot's byte (43_chain.md R205). -/
theorem State.Moves.wire_of_shifting {s v : State} (h : s.Moves v) (hfsm : s.fsm = .shifting) :
    ∃ rest, sentBytes rest = [] ∧
      v.wire = s.wire ++ .xfer s.slotByte (if s.inp.bus.ok then some s.inp.bus.rx else none) :: rest := by
  cases h with
  | idle hf | accept hf | error hf | answer hf | start hf | held hf | take hf => simp [hfsm] at hf
  | fail _ hok => exact ⟨[.csDeassert], rfl, by simp [State.busFail, hok]⟩
  | nextSlot _ hok => exact ⟨[], rfl, by simp [hok]⟩
  | nextCycle _ hok =>
    refine ⟨s.gapEvents, ?_, ?_⟩
    · unfold State.gapEvents
      split <;> rfl
    · simp [State.betweenCycles_eq, State.gapEvents, hok]
  | finish _ hl _ ht =>
    obtain ⟨hok, -, -⟩ := hl
    exact ⟨[.csDeassert], rfl, by simp [ht.wire_eq, State.afterLast, hok]⟩
  | writeBack _ hl =>
    obtain ⟨hok, -, -⟩ := hl
    exact ⟨[.csDeassert, .csAssert], rfl, by simp [State.afterLast, hok]⟩

/-- Settles O31: with the invariant the step is a move, and what the move shows is one exchange of the slot's byte. -/
theorem nonTargetSlotsCarryNop : Obligations.NonTargetSlotsCarryNop := by
  refine ⟨fun c t => ⟨fun h => by rw [Config.slotpos, h], fun h => by rw [Config.slotpos, h]⟩, fun s hi hr hfsm => ?_⟩
  obtain ⟨u, hstep⟩ := blockNeverStops s hi hr.readsHold
  obtain ⟨v, hv, rfl⟩ := step_next_of_running hr.running hstep
  obtain ⟨rest, hrest, hwire⟩ := hv.wire_of_shifting hfsm
  exact ⟨_, rest, hstep, hrest, v.nextInputs_wire.trans hwire⟩

/-- Settles O32: every move after a successful exchange leaves the echo buffer as the capture did. -/
theorem echoIsTargetSlotByte : Obligations.EchoIsTargetSlotByte := by
  intro s u hr hfsm hok h
  obtain ⟨v, hv, rfl⟩ := step_next_of_running hr.running h
  have hecho : v.echo = (s.capture s.slotByte).echo := by
    cases hv with
    | idle hf | accept hf | error hf | answer hf | start hf | held hf | take hf => simp [hfsm] at hf
    | fail _ hbad => simp [hok] at hbad
    | nextSlot | writeBack => rfl
    | nextCycle => simp
    | finish _ _ _ ht => exact ht.echo_eq
  rw [State.nextInputs_echo, hecho, State.capture_echo]
  exact ⟨fun h => if_pos h, fun h => if_neg h⟩

/-! ### The inputs that a SHIFT step reads -/

/-- An outcome whose next state has the inputs `x` for its own. -/
def setInputs (x : Inputs) : Outcome → Outcome
  | .next s => .next { s with inp := x }
  | .fault r => .fault r
  | .refused r => .refused r

/-- The next inputs replace a step's own. -/
theorem advance_setInputs (x : Inputs) (o : Outcome) : advance (setInputs x o) = advance o := by
  cases o with
  | next s => cases hs : s.script <;> simp [setInputs, advance, State.nextInputs, hs]
  | fault | refused => rfl

/-- finish() reads no input. -/
theorem finish_setInputs (x : Inputs) (s : State) : finish { s with inp := x } = setInputs x (finish s) := by
  simp only [finish]
  split
  · simp only [finishSetParam]
    cases s.cfg.lookup _ <;> rfl
  · simp only [finishSetRaw]
    cases s.cfg.lookup _ <;> rfl
  · simp only [finishGetParam]
    cases s.cfg.lookup _ <;> rfl
  · rfl
  · simp only [finishSetSubfield]
    split
    · split <;> rfl
    · rfl
  · simp only [finishGetSubfield]
    split <;> rfl
  · simp only [finishBusy]
    cases s.cfg.lookup _ <;> rfl
  all_goals rfl

/-- Of its inputs an exchange reads the bus reply alone. -/
theorem exchange_setInputs (b : Byte) {x : Inputs} {s : State} (hx : x.bus = s.inp.bus) :
    exchange b { s with inp := x } = setInputs x (exchange b s) := by
  have hcapture : State.capture b { s with inp := x } = { s.capture b with inp := x } := by simp only [State.capture, hx]
  simp only [exchange, hx, hcapture]
  split
  · split
    · rfl
    · split
      · simp only [State.betweenCycles_eq]
        rfl
      · exact finish_setInputs x (State.deassertCs { s.capture b with t := 0 })
  · rfl

/-- In SHIFTING without reset a step reads of its inputs the bus reply and the response registers read, and no more. -/
theorem step_setInputs {x : Inputs} {s : State} (hfsm : s.fsm = .shifting) (hrst : s.inp.rst = false) (hx : x.rst = s.inp.rst)
    (hread : x.rspRead = s.inp.rspRead) (hbus : x.bus = s.inp.bus) : step { s with inp := x } = step s := by
  have hbadRead : State.badRead { s with inp := x } = s.badRead := by
    simp only [State.badRead, hx, hread]
    rfl
  have hmove : fsmStep { s with inp := x } = setInputs x (fsmStep s) := by
    rw [fsmStep_of_shifting hfsm, fsmStep_of_shifting (s := { s with inp := x }) hfsm]
    exact exchange_setInputs _ hbus
  simp [step, blockStep, hbadRead, hmove, advance_setInputs, hx, hrst]

/-- Settles O34: the step reads none of these inputs, and of the moves out of SHIFTING all but the failed exchange and the last
one stay there. -/
theorem noCancellationWhileShifting : Obligations.NoCancellationWhileShifting := by
  refine fun s hfsm hrst => ⟨fun reqs take grant lines => step_setInputs hfsm hrst rfl rfl rfl, fun u h hok hl => ?_⟩
  obtain ⟨v, hv, rfl⟩ := step_next_of_running hrst h
  rw [State.nextInputs_fsm]
  cases hv with
  | idle hf | accept hf | error hf | answer hf | start hf | held hf | take hf => simp [hfsm] at hf
  | fail _ hbad => simp [hok] at hbad
  | nextSlot => exact hfsm
  | nextCycle => simpa using hfsm
  | finish _ hl' | writeBack _ hl' => exact absurd hl' hl

end Sys2Proof.Machine
end

section
/-! PROOFS. The request in the chain engine (43_chain.md R201, R202, R213, R216): which request ACCEPT takes, the operation that
ADDRESSING runs, and that no other request is accepted before TAKE. -/

namespace Sys2Proof.Machine

/-! ### ADDRESSING -/

/-- Settles O5: ADDRESSING dispatches on the decoding of the latched request. -/
theorem stepRunsDecodedRequest : Obligations.StepRunsDecodedRequest := fun _ _ => step_of_decodeFields_ok

/-- Settles O38: of the moves out of ADDRESSING only the start of a transaction, made when every check has passed, touches the bus,
and it shows no exchange. -/
theorem checksPrecedeTheBus : Obligations.ChecksPrecedeTheBus := by
  intro s u hi hr hfsm h
  have hcs : s.csAsserted = false := hi.csAsserted_eq_false (by simp [hfsm])
  obtain ⟨v, hv, rfl⟩ := step_next_of_running hr.running h
  simp only [State.nextInputs_wire, State.nextInputs_csAsserted, State.nextInputs_fsm, State.nextInputs_flen]
  cases hv with
  | idle hf | accept hf | fail hf | nextSlot hf | nextCycle hf | finish hf | writeBack hf | held hf | take hf => simp [hfsm] at hf
  | error => exact .inl ⟨rfl, hcs, rfl⟩
  | answer _ _ ht => exact .inl ⟨ht.wire_eq, ht.csAsserted_eq.trans hcs, ht.fsm_eq⟩
  | start _ bs hn => exact .inr ⟨rfl, rfl, rfl, hn⟩

/-! ### The arbiter -/

/-- The arbiter grants nothing only when no requester waits (43_chain.md R201). -/
theorem State.waiting_eq_nil_of_granted {s : State} (h : s.granted = none) : s.waiting = [] := by
  unfold State.granted at h
  split at h
  · cases h
  · exact List.head?_eq_none_iff.1 h

/-- A requester that waits and that the arbiter wishes for is the one it grants (43_chain.md R201, log entry 2). -/
theorem State.granted_eq_wish {s : State} {p : ReqPort} {w : Nat × ReqPort} (hwaits : (s.inp.grant, p) ∈ s.waiting)
    (h : s.granted = some w) : w.1 = s.inp.grant := by
  unfold State.granted at h
  split at h
  · next hf =>
    cases h
    exact eq_of_beq (List.find?_some hf :)
  · next hf => exact absurd (beq_self_eq_true _) (List.find?_eq_none.1 hf _ hwaits)

/-- Settles O41: the arbiter grants a waiting requester, the wished one where it waits, and none only when none waits. -/
theorem acceptGrantsAWaitingRequester : Obligations.AcceptGrantsAWaitingRequester := by
  intro s hr hfsm
  have hstep : step s = .next s.idleStep.nextInputs := by rw [step_of_ready hr, fsmStep, hfsm, advance]
  rw [hstep, State.idleStep]
  cases hg : s.granted with
  | none =>
    have hnil := State.waiting_eq_nil_of_granted hg
    refine ⟨fun q p hq hp hv => ?_, fun _ => rfl⟩
    have hmem := State.mem_waiting.2 ⟨hq, hp, hv⟩
    simp [hnil] at hmem
  | some w =>
    obtain ⟨hq, hp, hv⟩ := State.mem_waiting.1 (State.granted_mem_waiting hg)
    refine ⟨fun q p hq' hp' hv' => ⟨w.1, w.2, hq, hp, hv, fun hwish => ?_, rfl⟩, fun hnone => ?_⟩
    · subst hwish
      exact State.granted_eq_wish (State.mem_waiting.2 ⟨hq', hp', hv'⟩) hg
    · simp [hnone _ _ hq hp] at hv

theorem State.taken_iff {s : State} : s.taken = true ↔ ∃ q, s.owner = some q ∧ q ∈ s.inp.take := by
  unfold State.taken
  cases s.owner <;> simp

/-- Settles O42: outside IDLE no move latches a request, and of the moves TAKE alone leaves for IDLE and gives up the owner. -/
theorem oneRequestAtATime : Obligations.OneRequestAtATime := by
  intro s u hrst hidle h
  obtain ⟨v, hv, rfl⟩ := step_next_of_running hrst h
  simp only [State.nextInputs_req, State.nextInputs_fsm, State.nextInputs_owner]
  cases hv with
  | idle hf | accept hf => exact absurd hf hidle
  | error | start | fail | writeBack => exact .inl ⟨rfl, by simp [State.busFail], rfl⟩
  | nextSlot => exact .inl ⟨rfl, hidle, rfl⟩
  | nextCycle => exact .inl (by simpa using hidle)
  | answer _ _ ht | finish _ _ _ ht => exact .inl ⟨ht.req_eq, by simp [ht.fsm_eq], ht.owner_eq⟩
  | held => exact .inl ⟨rfl, hidle, rfl⟩
  | take hf ht => exact .inr ⟨rfl, rfl, hf, rfl, State.taken_iff.1 ht⟩

end Sys2Proof.Machine
end

section
/-! PROOFS. The register and raw-frame operations of the chain engine (43_chain.md R220 to R224): the check that decides the error,
by the order of 60_exceptions.md R301; the transaction that starts when none fails; and the response after its last exchange. -/

namespace Sys2Proof

theorem decodeFields_eq_setParam {r : Request} :
    decodeFields r = .ok (.setParam r.pos r.reg r.phys) ↔ r.rsv = 0#6 ∧ r.op = 0x6#4 :=
  decodeFields_eq_ok_iff rfl fun hrsv hop => by simp [decodeFields, hrsv, hop]

theorem decodeFields_eq_setRaw {r : Request} :
    decodeFields r = .ok (.setRaw r.pos r.reg r.val) ↔ r.rsv = 0#6 ∧ r.op = 0x7#4 :=
  decodeFields_eq_ok_iff rfl fun hrsv hop => by simp [decodeFields, hrsv, hop]

theorem decodeFields_eq_getParam {r : Request} : decodeFields r = .ok (.getParam r.pos r.reg) ↔ r.rsv = 0#6 ∧ r.op = 0x8#4 :=
  decodeFields_eq_ok_iff rfl fun hrsv hop => by simp [decodeFields, hrsv, hop]

theorem decodeFields_eq_xferFrame {r : Request} :
    decodeFields r = .ok (.xferFrame r.pos r.wl r.val) ↔ r.rsv = 0#6 ∧ r.op = 0x9#4 :=
  decodeFields_eq_ok_iff rfl fun hrsv hop => by simp [decodeFields, hrsv, hop]

end Sys2Proof

namespace Sys2Proof.Machine

/-! ### The check that is reported -/

/-- The error that checks report, if any. -/
def reported {α : Type} : Except ErrCode α → Option ErrCode
  | .error e => some e
  | .ok _ => none

@[simp] theorem reported_error {α : Type} (e : ErrCode) : reported (.error e : Except ErrCode α) = some e := rfl
@[simp] theorem reported_pure {α : Type} (a : α) : reported (pure a : Except ErrCode α) = none := rfl

theorem eq_error_of_reported {α : Type} {x : Except ErrCode α} {k : ErrCode} (h : reported x = some k) : x = .error k := by
  cases x <;> cases h
  rfl

section

variable {β : Type} {c : Config}

theorem reported_checkRegister_bind (reg : RegId) (f : Entry → Except ErrCode β) :
    reported (checkRegister c reg >>= f) = match c.lookup reg with
      | none => some .unknownRegister
      | some e => if !(decide (1 ≤ e.width) && decide (e.width ≤ 22)) then some .invalidWidth else reported (f e) := by
  cases he : c.lookup reg with
  | none => rw [bind_of_error (checkRegister_of_unknown he)]; rfl
  | some e =>
    by_cases hw : 1 ≤ e.width ∧ e.width ≤ 22
    · rw [bind_of_ok (checkRegister_of_known he hw)]
      simp [hw]
    · rw [bind_of_error (checkRegister_of_width he hw)]
      exact (if_pos (by simp; omega)).symm

theorem reported_checkPosition_bind (pos : Pos) (f : Unit → Except ErrCode β) :
    reported (checkPosition c pos >>= f) = if c.n ≤ pos.toNat then some .invalidPosition else reported (f ()) := by
  unfold checkPosition
  split <;> rfl

theorem reported_checkWritable_bind (e : Entry) (f : Unit → Except ErrCode β) :
    reported (checkWritable e >>= f) = if e.access = .ro then some .readOnlyRegister else reported (f ()) := by
  unfold checkWritable
  cases e.access <;> rfl

theorem reported_checkFrameLength_bind (len : BitVec 5) (f : Unit → Except ErrCode β) :
    reported (checkFrameLength len >>= f) =
      if !(decide (1 ≤ len.toNat) && decide (len.toNat ≤ 4)) then some .invalidFrameLength else reported (f ()) := by
  by_cases h : 1 ≤ len.toNat ∧ len.toNat ≤ 4
  · rw [bind_of_ok (checkFrameLength_eq_ok.2 h)]
    simp [h]
  · have herr : checkFrameLength len = .error .invalidFrameLength := by
      unfold checkFrameLength lMax
      exact if_pos (by omega)
    rw [bind_of_error herr]
    exact (if_pos (by simp; omega)).symm

end

/-- A quotient is an integer exactly when the division leaves no rest. -/
theorem div_eq_intCast_iff {a d r : Int} (hd : d ≠ 0) : (a : Rat) / d = r ↔ a % d = 0 ∧ a / d = r := by
  rw [div_eq_iff (Int.cast_ne_zero.2 hd), ← Int.cast_mul, Int.cast_inj]
  constructor
  · rintro rfl
    exact ⟨Int.mul_emod_left r d, Int.mul_ediv_cancel r hd⟩
  · rintro ⟨hrest, rfl⟩
    exact (Int.ediv_mul_cancel (Int.dvd_of_emod_eq_zero hrest)).symm

/-- For IDENTITY a physical operand is in range when its rational is an integer that the register holds (41_conversion.md R135). -/
theorem physOutOfRange_of_identity {e : Entry} {phys : Phys} (hden : phys.den ≠ 0#32) (hconv : e.conv = .identity) :
    physOutOfRange e phys = false ↔
      ∃ r : Int, (phys.num.toInt : Rat) / (phys.den.toNat : Rat) = r ∧ 0 ≤ r ∧ r ≤ 2 ^ e.width - 1 := by
  have hd : (phys.den.toNat : Int) ≠ 0 := by simpa [BitVec.toNat_eq] using hden
  have hquot (r : Int) := div_eq_intCast_iff (a := phys.num.toInt) (r := r) hd
  simp only [Int.cast_natCast] at hquot
  have hd' : phys.den.toNat ≠ 0 := mod_cast hd
  simp [physOutOfRange, hquot, hconv, hd', and_assoc]

/-- The check of a physical operand, by the operand's own reckoning (30_encoding.md R81, 41_conversion.md R135). -/
theorem reported_convert_bind {β : Type} (e : Entry) (phys : Phys) (f : Int → β) :
    reported (physValue phys >>= fun v => convert e v >>= fun r => pure (f r)) =
      if physOutOfRange e phys then some .valueOutOfRange else none := by
  by_cases hden : phys.den = 0#32
  · rw [bind_of_error (physValue_of_den_eq_zero hden)]
    simp [physOutOfRange, hden]
  · have hd : phys.den.toNat ≠ 0 := by simpa [BitVec.toNat_eq] using hden
    rw [bind_of_ok (physValue_of_den_ne_zero hden)]
    cases hconv : e.conv with
    | identity =>
      rw [convert_of_identity hconv]
      by_cases hfits : ∃ r : Int, (phys.num.toInt : Rat) / (phys.den.toNat : Rat) = r ∧ 0 ≤ r ∧ r ≤ 2 ^ e.width - 1
      · obtain ⟨r, hr⟩ := id hfits
        simp [bind_of_ok (convIdentity_eq_ok.2 hr), (physOutOfRange_of_identity hden hconv).2 hfits]
      · have hout := mt (physOutOfRange_of_identity hden hconv).1 hfits
        simp [bind_of_error (convIdentity_of_not_fits hfits), hout]
    | motion K maxV sent =>
      rw [bind_of_ok (convert_of_motion hconv)]
      simp [physOutOfRange, hd, hconv]
    | linear K B =>
      rw [bind_of_ok (convert_of_linear hconv)]
      simp [physOutOfRange, hd, hconv]

theorem find?_cons_eq_ite {α : Type} (p : α → Bool) (a : α) (as : List α) :
    (a :: as).find? p = if p a then some a else as.find? p := by
  cases h : p a <;> simp [h]

theorem reported_setParamOperands (c : Config) (pos : Pos) (reg : RegId) (phys : Phys) :
    reported (setParamOperands c pos reg phys) = checkOrder.find? (checkFails c (.setParam pos reg phys)) := by
  simp only [setParamOperands, reported_checkRegister_bind, reported_checkPosition_bind, reported_checkWritable_bind,
    reported_convert_bind, checkOrder, find?_cons_eq_ite, List.find?_nil]
  cases he : c.lookup reg <;> simp [checkFails, namedRegister, namedField, namedPosition, isSet, he]

theorem reported_setRawOperands (c : Config) (pos : Pos) (reg : RegId) (val : Word32) :
    reported (setRawOperands c pos reg val) = checkOrder.find? (checkFails c (.setRaw pos reg val)) := by
  simp only [setRawOperands, reported_checkRegister_bind, reported_checkPosition_bind, reported_checkWritable_bind,
    checkOrder, find?_cons_eq_ite, List.find?_nil]
  cases he : c.lookup reg <;> simp [checkFails, namedRegister, namedField, namedPosition, isSet, he]

theorem reported_getParamOperands (c : Config) (pos : Pos) (reg : RegId) :
    reported (getParamOperands c pos reg) = checkOrder.find? (checkFails c (.getParam pos reg)) := by
  simp only [getParamOperands, reported_checkRegister_bind, reported_checkPosition_bind, checkOrder,
    find?_cons_eq_ite, List.find?_nil]
  cases he : c.lookup reg <;> simp [checkFails, namedRegister, namedField, namedPosition, isSet, he]

theorem reported_xferOperands (c : Config) (pos : Pos) (len : BitVec 5) (bytes : Word32) :
    reported (xferOperands c pos len bytes) = checkOrder.find? (checkFails c (.xferFrame pos len bytes)) := by
  simp only [xferOperands, reported_checkFrameLength_bind, reported_checkPosition_bind, checkOrder,
    find?_cons_eq_ite, List.find?_nil]
  simp [checkFails, namedRegister, namedField, namedPosition, isSet]

/-! ### The transaction and the response -/

/-- The start of a transaction whose frame has `n` bytes, written out (43_chain.md R202). -/
theorem State.startTransaction_eq (s : State) {bs : List Byte} {n : Nat} (hn : bs.length = n) : s.startTransaction bs = { s with
    frame := State.overlay s.frame bs, flen := n, j := 0, t := 0, csAsserted := true, fsm := .shifting,
    wire := s.wire ++ [.csAssert] } := by
  subst hn
  rfl

/-- The data bytes of a buffer that opens with a command byte and an encoding are the encoding (43_chain.md R203). -/
theorem State.dataBytes_of_take {v : Vector Byte 4} {n w : Nat} {cmd : Byte} {r : Int}
    (h : v.toList.take n = cmd :: encodeBytes r w) : State.dataBytes v w = encodeBytes r w := by
  have hlen : 1 + nb w ≤ n := by
    have hcount := congrArg List.length h
    simp at hcount
    omega
  calc State.dataBytes v w = ((v.toList.take n).take (1 + nb w)).drop 1 := by
        rw [State.dataBytes, List.take_take, Nat.min_eq_left hlen, List.drop_take, Nat.add_sub_cancel_left]
    _ = encodeBytes r w := by
        rw [h, Nat.add_comm, List.take_succ_cons, List.drop_one, List.tail_cons,
          List.take_of_length_le (encodeBytes_length r w).le]

/-- The response of a set operation whose frame carries a register's value (43_chain.md R220, R221; log entry 7). -/
theorem State.respondSent_of_frame {s : State} {w : Nat} {cmd : Byte} {r : Int} (hw : 1 ≤ w ∧ w ≤ 22) (h0 : 0 ≤ r)
    (h1 : r < 2 ^ w) (hframe : s.frame.toList.take s.flen = cmd :: encodeBytes r w) : s.respondSent w = { s with
      rspInt := BitVec.ofInt 32 r, rspBytes := State.overlay s.rspBytes (s.echo.toList.take s.flen),
      rspLen := BitVec.ofNat 3 s.flen, rspStatus := 0, rspValid := true, fsm := .complete } := by
  have hsent : (s.sentValue w : Int) = r := by
    rw [State.sentValue, State.dataBytes_of_take hframe, codecRoundTrip r w hw.1 hw.2, Int.emod_eq_of_lt h0 h1]
  rw [← hsent, BitVec.ofInt_natCast]
  rfl

section

variable {s : State} {pos : Pos} {reg : RegId} {e : Entry}

theorem finish_setParam {phys : Phys} (hd : decodeFields s.req = .ok (.setParam pos reg phys)) (he : s.cfg.lookup reg = some e) :
    finish s = .next (s.respondSent e.width) := by
  simp only [finish, hd, finishSetParam, he]

theorem finish_setRaw {val : Word32} (hd : decodeFields s.req = .ok (.setRaw pos reg val)) (he : s.cfg.lookup reg = some e) :
    finish s = .next (s.respondSent e.width) := by
  simp only [finish, hd, finishSetRaw, he]

theorem finish_getParam (hd : decodeFields s.req = .ok (.getParam pos reg)) (he : s.cfg.lookup reg = some e) :
    finish s = .next (s.respondRead e.width) := by
  simp only [finish, hd, finishGetParam, he]

theorem finish_xferFrame {len : BitVec 5} {bytes : Word32} (hd : decodeFields s.req = .ok (.xferFrame pos len bytes)) :
    finish s = .next s.withEcho.respondOk := by
  simp only [finish, hd, finishXferFrame]

/-- GET_PARAM of a known register of the chain starts its get frame (43_chain.md R222). -/
theorem exec_getParam_of_known (he : s.cfg.lookup reg = some e) (hw : 1 ≤ e.width ∧ e.width ≤ 22) (hp : pos.toNat < s.cfg.n) :
    exec (.getParam pos reg) s = .next (s.startTransaction (getFrame s.cfg reg e.width)) :=
  settle_of_ok (getParamOperands_eq_ok.2 ⟨checkRegister_of_known he hw, hp⟩)

end

/-- Settles O22: the first failing check decides, and what the last exchange answers is read from the frame it ends. -/
theorem setParamSendsConvertedValue : Obligations.SetParamSendsConvertedValue := by
  refine ⟨fun r => decodeFields_eq_setParam, fun pos reg phys s => ⟨fun k hk => ?_, fun e r he hw hp hrw hden hr => ⟨?_, ?_⟩⟩⟩
  · exact settle_of_error (eq_error_of_reported ((reported_setParamOperands ..).trans hk))
  · have hops : setParamOperands s.cfg pos reg phys = .ok (e, r) :=
      setParamOperands_eq_ok.2 ⟨checkRegister_of_known he hw, hp, hrw, _, physValue_of_den_ne_zero hden, hr⟩
    exact (settle_of_ok hops).trans (congrArg _ (s.startTransaction_eq (setFrame_length ..)))
  · intro b hd hl h0 h1 hframe
    rw [exchange_of_last hl, finish_setParam (s := s.afterLast b) hd he]
    exact congrArg _ (State.respondSent_of_frame (s := s.afterLast b) hw h0 h1 hframe)

/-- Settles O23: no check looks at the value, and its residue fits the register, so the frame carries it whole. -/
theorem setRawSendsTruncatedValue : Obligations.SetRawSendsTruncatedValue := by
  refine ⟨fun r => decodeFields_eq_setRaw, fun pos reg val s => ⟨fun k hk => ?_, fun e he hw hp hrw => ⟨?_, ?_⟩⟩⟩
  · exact settle_of_error (eq_error_of_reported ((reported_setRawOperands ..).trans hk))
  · have hops : setRawOperands s.cfg pos reg val = .ok (e, val.toInt % 2 ^ e.width) :=
      setRawOperands_eq_ok.2 ⟨checkRegister_of_known he hw, hp, hrw, rfl⟩
    exact (settle_of_ok hops).trans (congrArg _ (s.startTransaction_eq (setFrame_length ..)))
  · intro b hd hl hframe
    have h1 : val.toInt % 2 ^ e.width < 2 ^ e.width := Int.emod_lt_of_pos _ (by positivity)
    rw [exchange_of_last hl, finish_setRaw (s := s.afterLast b) hd he]
    exact congrArg _ (State.respondSent_of_frame (s := s.afterLast b) hw (emod_two_pow_nonneg _ _) h1 hframe)

/-- Settles O24: the first failing check decides, and the last exchange answers from the echo it completes. -/
theorem getParamReadsEchoedValue : Obligations.GetParamReadsEchoedValue := by
  refine ⟨fun r => decodeFields_eq_getParam, fun pos reg s => ⟨fun k hk => ?_, fun e he hw hp => ⟨?_, ?_⟩⟩⟩
  · exact settle_of_error (eq_error_of_reported ((reported_getParamOperands ..).trans hk))
  · exact (exec_getParam_of_known he hw hp).trans (congrArg _ (s.startTransaction_eq (getFrame_length ..)))
  · intro b hd hl
    rw [exchange_of_last hl, finish_getParam (s := s.afterLast b) hd he]
    rfl

/-- Settles O25: the frame is the operand's first bytes, at most four, and the last exchange answers with the echo. -/
theorem xferFrameSendsCallerBytes : Obligations.XferFrameSendsCallerBytes := by
  refine ⟨fun r => decodeFields_eq_xferFrame, fun pos len bytes s => ⟨fun k hk => ?_, fun h1 h4 hp => ?_, fun b hd hl => ?_⟩⟩
  · exact settle_of_error (eq_error_of_reported ((reported_xferOperands ..).trans hk))
  · have hops : xferOperands s.cfg pos len bytes =
        .ok ((List.range len.toNat).map fun m => bytes.extractLsb' (24 - 8 * m) 8) :=
      xferOperands_eq_ok.2 ⟨h1, h4, hp, (take_operandBytes bytes h4).symm⟩
    exact (settle_of_ok hops).trans (congrArg _ (s.startTransaction_eq (by simp)))
  · rw [exchange_of_last hl, finish_xferFrame (s := s.afterLast b) hd]
    rfl

end Sys2Proof.Machine
end

section
/-! PROOFS. Whole transactions of the chain engine (43_chain.md R205 to R212, R215): what one has shown on the bus and captured
after each of its exchanges (`State.Underway`) and after the last (`State.Shifted`), the bytes that it sends, and GET_PARAM from
its ADDRESSING step to its response (R222). -/

namespace Sys2Proof.Machine

theorem State.badRead_of_no_read {s : State} (h : s.inp.rspRead = []) : s.badRead = none := by
  simp [State.badRead, h]

/-! ### The bus events of a transaction -/

/-- What the transaction of `s` receives in its `m`-th exchange, counted from 0 (43_chain.md R205). -/
def State.received (s : State) (m : Nat) : Byte := (s.coming.getD m s.inp).bus.rx

/-- The events that a transaction has shown after its `CS(asserted)` when wire index `t` of byte-cycle `j` comes next: the
byte-cycles before with the gap after each, and the first `t` exchanges of this one (43_chain.md R205, R208). -/
def State.shownEvents (s : State) (rx : Nat → Byte) (j t : Nat) : List BusEvent :=
  ((List.range j).flatMap fun cycle => (if cycle = 0 then [] else s.gapEvents) ++ s.cycleEvents rx cycle) ++
    (if j = 0 then [] else s.gapEvents) ++ (s.cycleEvents rx j).take t

section

variable (s : State) (rx : Nat → Byte)

theorem State.length_cycleEvents (j : Nat) : (s.cycleEvents rx j).length = s.cfg.n := by simp [State.cycleEvents]

theorem State.take_cycleEvents (j : Nat) : (s.cycleEvents rx j).take s.cfg.n = s.cycleEvents rx j :=
  List.take_of_length_le (s.length_cycleEvents rx j).le

@[simp] theorem State.shownEvents_zero : s.shownEvents rx 0 0 = [] := by simp [State.shownEvents]

/-- One more exchange of a byte-cycle. -/
theorem State.shownEvents_succ {j t : Nat} (ht : t < s.cfg.n) :
    s.shownEvents rx j (t + 1) = s.shownEvents rx j t ++ [.xfer (s.slotCarries j t) (some (rx (j * s.cfg.n + t)))] := by
  simp [State.shownEvents, State.cycleEvents, List.take_add_one, ht]

/-- The gap between a whole byte-cycle and the next. -/
theorem State.shownEvents_nextCycle (j : Nat) : s.shownEvents rx (j + 1) 0 = s.shownEvents rx j s.cfg.n ++ s.gapEvents := by
  simp [State.shownEvents, List.range_succ, State.take_cycleEvents]

/-- The last byte-cycle has no gap after it, and ends with the release of chip-select. -/
theorem State.transactionEvents_eq {j : Nat} (hj : s.flen = j + 1) :
    s.transactionEvents rx = s.shownEvents rx j s.cfg.n ++ [.csDeassert] := by
  simp [State.transactionEvents, State.shownEvents, hj, List.range_succ, State.take_cycleEvents]

end

/-! ### A transaction on its way -/

/-- `s` starts a transaction whose exchanges all succeed, with no reset and no read on the way. -/
structure State.Undisturbed (s : State) : Prop where
  inv     : s.Inv
  fsm     : s.fsm = .shifting
  j_eq    : s.j = 0
  t_eq    : s.t = 0
  enough  : s.cfg.n * s.flen ≤ s.coming.length
  carries : ∀ x ∈ s.coming.take (s.cfg.n * s.flen), x.CarriesOn

/-- The echo buffer after `m` exchanges of the transaction of `s`: the target's byte of each byte-cycle whose target slot is among
them (43_chain.md R207). -/
def State.Echoed (s : State) (m : Nat) (echo : Vector Byte 4) : Prop :=
  ∀ c, c * s.cfg.n + s.cfg.slotpos s.req.pos.toNat < m →
    echo.getD c 0 = s.received (c * s.cfg.n + s.cfg.slotpos s.req.pos.toNat)

/-- `v` is the state after `m` exchanges of the transaction that `s` starts, with more to come. -/
structure State.Underway (s : State) (m : Nat) (v : State) : Prop where
  cfg    : v.cfg = s.cfg
  req    : v.req = s.req
  frame  : v.frame = s.frame
  flen   : v.flen = s.flen
  phase  : v.phase = s.phase
  fsm    : v.fsm = .shifting
  coming : v.coming = s.coming.drop m
  t_lt   : v.t < s.cfg.n
  j_lt   : v.j < s.flen
  place  : v.j * s.cfg.n + v.t = m
  wire   : v.wire = s.wire ++ s.shownEvents s.received v.j v.t
  echo   : s.Echoed m v.echo

/-- `v` is the state in which finish() runs after the last exchange of the transaction that `s` starts. -/
structure State.Shifted (s v : State) : Prop where
  cfg   : v.cfg = s.cfg
  req   : v.req = s.req
  frame : v.frame = s.frame
  flen  : v.flen = s.flen
  phase : v.phase = s.phase
  wire  : v.wire = s.wire ++ s.transactionEvents s.received
  echo  : s.Echoed (s.cfg.n * s.flen) v.echo

namespace State.Undisturbed

variable {s : State} (hs : s.Undisturbed)
include hs

theorem bounds : 1 ≤ s.flen ∧ s.flen ≤ 4 ∧ s.req.pos.toNat < s.cfg.n := by
  obtain ⟨-, -, hn⟩ := hs.inv.inFlight hs.fsm
  exact transactionLength_bounds hn

theorem underway_zero : s.Underway 0 s where
  cfg := rfl
  req := rfl
  frame := rfl
  flen := rfl
  phase := rfl
  fsm := hs.fsm
  coming := rfl
  t_lt := hs.t_eq ▸ hs.inv.chain_pos
  j_lt := hs.j_eq ▸ hs.bounds.1
  place := by simp [hs.j_eq, hs.t_eq]
  wire := by simp [hs.j_eq, hs.t_eq]
  echo _ h := absurd h (Nat.not_lt_zero _)

end State.Undisturbed

namespace State.Underway

variable {s v : State} {m : Nat} (h : s.Underway m v)
include h

theorem inp_eq : s.coming[m]? = some v.inp := by
  have hd : (s.coming.drop m)[0]? = some v.inp := by rw [← h.coming]; rfl
  simpa using hd

theorem received_eq : s.received m = v.inp.bus.rx := by
  simp [State.received, List.getD_eq_getElem?_getD, h.inp_eq]

theorem script_eq : v.script = s.coming.drop (m + 1) := by
  rw [← List.tail_drop, ← h.coming]
  rfl

theorem slotByte_eq : v.slotByte = s.slotCarries v.j v.t := by
  simp only [State.slotByte, State.slotCarries, h.cfg, h.req, h.frame]

theorem lt_length : m < s.cfg.n * s.flen := by
  calc m < (v.j + 1) * s.cfg.n := by have := h.place; have := h.t_lt; rw [Nat.succ_mul]; omega
    _ ≤ s.flen * s.cfg.n := Nat.mul_le_mul_right _ h.j_lt
    _ = s.cfg.n * s.flen := Nat.mul_comm _ _

/-- The place in the transaction is told by the number of exchanges made (20_memory.md R72). -/
theorem eq_of_place {j t : Nat} (ht : t < s.cfg.n) (hplace : j * s.cfg.n + t = m) : v.j = j ∧ v.t = t := by
  have hsame : v.j * s.cfg.n + v.t = j * s.cfg.n + t := h.place.trans hplace.symm
  have hmod := congrArg (· % s.cfg.n) hsame
  simp only [Nat.mul_add_mod', Nat.mod_eq_of_lt ht, Nat.mod_eq_of_lt h.t_lt] at hmod
  rw [hmod, Nat.add_right_cancel_iff] at hsame
  exact ⟨Nat.eq_of_mul_eq_mul_right (Nat.zero_lt_of_lt ht) hsame, hmod⟩

/-- The next exchange is shown with its slot's byte (43_chain.md R211). -/
theorem capture_wire : (v.capture v.slotByte).wire = s.wire ++ s.shownEvents s.received v.j (v.t + 1) := by
  rw [State.shownEvents_succ _ _ h.t_lt, h.place, h.received_eq, State.capture_wire, h.wire, h.slotByte_eq, List.append_assoc]

variable (hs : s.Undisturbed)
include hs

/-- The next exchange leaves the target's byte in the echo buffer, and no other (43_chain.md R207). -/
theorem capture_echo (b : Byte) : s.Echoed (m + 1) (v.capture b).echo := by
  obtain ⟨-, hflen, hpos⟩ := hs.bounds
  obtain ⟨hlt, hslot⟩ := slotpos_slotpos hpos
  intro c hc
  rw [State.capture_echo, h.cfg, h.req]
  rcases eq_or_ne (c * s.cfg.n + s.cfg.slotpos s.req.pos.toNat) m with hnow | hbefore
  · obtain ⟨hj, ht⟩ := h.eq_of_place hlt hnow
    rw [ht, if_pos hslot, getD_setIfInBounds, if_pos ⟨hj, h.j_lt.trans_le hflen⟩, hnow, h.received_eq]
  · have hkept := h.echo c (Nat.lt_of_le_of_ne (Nat.le_of_lt_succ hc) hbefore)
    split
    · next htarget =>
      have ht : v.t = s.cfg.slotpos s.req.pos.toNat := slotpos_inj h.t_lt hlt (htarget.trans hslot.symm)
      have hj : v.j ≠ c := fun hj => hbefore (by rw [← hj, ← ht, h.place])
      rw [getD_setIfInBounds, if_neg fun hc => hj hc.1, hkept]
    · exact hkept

theorem carriesOn : v.inp.CarriesOn :=
  hs.carries _ (List.mem_of_getElem? (i := m) (by rw [List.getElem?_take_of_lt h.lt_length, h.inp_eq]))

theorem ready : v.Ready := by
  obtain ⟨hrst, hread, -⟩ := h.carriesOn hs
  exact ⟨h.cfg ▸ hs.inv.configLegal, hrst, State.badRead_of_no_read hread⟩

theorem nextInputs_coming {w : State} (hm : m + 1 < s.cfg.n * s.flen) (hw : w.script = v.script) :
    w.nextInputs.coming = s.coming.drop (m + 1) := by
  have hlt := hm.trans_le hs.enough
  have hne : w.script ≠ [] := by rw [hw, h.script_eq]; simpa using hlt
  rw [Machine.nextInputs_coming hne, hw, h.script_eq]

/-- After an exchange that is not the last the transaction is under way at the place that comes next. -/
theorem of_capture (hm : m + 1 < s.cfg.n * s.flen) {j t : Nat} {cs : Bool} {shown : List BusEvent} (ht : t < s.cfg.n)
    (hj : j < s.flen) (hplace : j * s.cfg.n + t = m + 1) (hshown : shown = s.wire ++ s.shownEvents s.received j t) :
    s.Underway (m + 1) ({ v.capture v.slotByte with t := t, j := j, csAsserted := cs, wire := shown } : State).nextInputs where
  cfg := by simpa using h.cfg
  req := by simpa using h.req
  frame := by simpa using h.frame
  flen := by simpa using h.flen
  phase := by simpa using h.phase
  fsm := by simpa using h.fsm
  coming := h.nextInputs_coming hs hm rfl
  t_lt := by simpa using ht
  j_lt := by simpa using hj
  place := by simpa using hplace
  wire := by simpa using hshown
  echo := by simpa using h.capture_echo hs v.slotByte

/-- The last exchange is the one that makes `N * flen` (43_chain.md R205). -/
theorem lastExchange_iff : v.LastExchange ↔ m + 1 = s.cfg.n * s.flen := by
  obtain ⟨-, -, hok⟩ := h.carriesOn hs
  have hplace := h.place
  have ht := h.t_lt
  have hcount : s.cfg.n * (v.j + 1) = v.j * s.cfg.n + s.cfg.n := by rw [Nat.mul_comm, Nat.succ_mul]
  rw [State.LastExchange, h.cfg, h.flen]
  constructor
  · rintro ⟨-, hend, hj⟩
    rw [Nat.le_antisymm hj h.j_lt, hcount]
    omega
  · intro hm
    have hle : s.cfg.n * s.flen ≤ s.cfg.n * (v.j + 1) := by omega
    have hj : s.flen = v.j + 1 := Nat.le_antisymm (Nat.le_of_mul_le_mul_left hle hs.inv.chain_pos) h.j_lt
    rw [hj, hcount] at hm
    exact ⟨hok, by omega, hj.le⟩

/-- An exchange that is not the last leads to the next (43_chain.md R205). -/
theorem next (hm : m + 1 < s.cfg.n * s.flen) : ∃ u, step v = .next u ∧ s.Underway (m + 1) u := by
  obtain ⟨-, -, hok⟩ := h.carriesOn hs
  have hplace := h.place
  rw [step_of_shifting (h.ready hs) h.fsm]
  obtain ⟨hbad, -⟩ | ⟨-, ht, hx⟩ | ⟨-, ht, hj, hx⟩ | ⟨hl, -⟩ := exchange_cases v.slotByte v
  · simp [hok] at hbad
  · exact ⟨_, congrArg advance hx, h.of_capture hs hm (h.cfg ▸ ht) h.j_lt (congrArg Nat.succ hplace) h.capture_wire⟩
  · have hend : v.t + 1 = s.cfg.n := Nat.le_antisymm h.t_lt (h.cfg ▸ ht)
    have hwire := h.capture_wire
    rw [hend] at hwire
    rw [State.betweenCycles_eq] at hx
    have hnext : (v.j + 1) * s.cfg.n + 0 = m + 1 := by rw [Nat.succ_mul]; omega
    refine ⟨_, congrArg advance hx, h.of_capture hs hm hs.inv.chain_pos (h.flen ▸ hj) hnext ?_⟩
    rw [State.shownEvents_nextCycle, ← List.append_assoc, ← hwire]
    simp [State.gapEvents, h.cfg]
  · exact absurd ((h.lastExchange_iff hs).1 hl) hm.ne

/-- The last exchange, after which finish() runs (43_chain.md R205). -/
theorem last (hm : m + 1 = s.cfg.n * s.flen) : ∃ e, step v = advance (finish e) ∧ s.Shifted e := by
  have hl := (h.lastExchange_iff hs).2 hm
  obtain ⟨-, ht, hj⟩ := id hl
  have hend : v.t + 1 = s.cfg.n := Nat.le_antisymm h.t_lt (h.cfg ▸ ht)
  have hlast : s.flen = v.j + 1 := Nat.le_antisymm (h.flen ▸ hj) h.j_lt
  refine ⟨v.afterLast v.slotByte, ?_, h.cfg, h.req, h.frame, h.flen, h.phase, ?_, hm ▸ h.capture_echo hs v.slotByte⟩
  · rw [step_of_shifting (h.ready hs) h.fsm, exchange_of_last hl]
  · have hwire := h.capture_wire
    rw [hend, State.capture_wire] at hwire
    rw [State.transactionEvents_eq _ _ hlast, ← List.append_assoc, ← hwire]
    simp [State.afterLast]

end State.Underway

namespace State.Undisturbed

variable {s : State} (hs : s.Undisturbed)
include hs

/-- An undisturbed transaction goes on until its last exchange. -/
theorem run_underway {m : Nat} (hm : m < s.cfg.n * s.flen) : ∃ v, run m s = .next v ∧ s.Underway m v := by
  induction m with
  | zero => exact ⟨s, rfl, hs.underway_zero⟩
  | succ m ih =>
    obtain ⟨v, hrun, hv⟩ := ih (Nat.lt_of_succ_lt hm)
    obtain ⟨u, hstep, hu⟩ := hv.next hs hm
    exact ⟨u, run_snoc hrun hstep, hu⟩

/-- An undisturbed transaction runs to its end, where finish() answers (43_chain.md R205, R209). -/
theorem run_shifted : ∃ e, s.Shifted e ∧ ∀ u, finish e = .next u → run (s.cfg.n * s.flen) s = .next u.nextInputs := by
  have hpos : 0 < s.cfg.n * s.flen := Nat.mul_pos hs.inv.chain_pos hs.bounds.1
  obtain ⟨v, hrun, hv⟩ := hs.run_underway (Nat.sub_one_lt_of_lt hpos)
  obtain ⟨e, hstep, he⟩ := hv.last hs (Nat.sub_one_add_one hpos.ne')
  refine ⟨e, he, fun u hu => ?_⟩
  rw [← Nat.sub_one_add_one hpos.ne']
  exact run_snoc hrun (by rw [hstep, hu, advance])

end State.Undisturbed

/-- Settles O55: the transaction runs to the state in which finish() has its events behind it; there finish() responds, or starts
SET_SUBFIELD's write, since the request runs a transaction. -/
theorem transactionShowsItsExchanges : Obligations.TransactionShowsItsExchanges := by
  intro s hi hfsm hj ht hlen hx
  have hs : s.Undisturbed := ⟨hi, hfsm, hj, ht, hlen, hx⟩
  obtain ⟨e, he, hrun⟩ := hs.run_shifted
  obtain ⟨u, hf, hu⟩ | ⟨bs, hf, hp, hop, -⟩ | ⟨-, hnone⟩ := finish_cases e
  · refine ⟨_, hrun u hf, .inl ?_⟩
    simp only [State.nextInputs_fsm, State.nextInputs_rspStatus, State.nextInputs_wire]
    exact ⟨hu.fsm_eq, hu.rspStatus_eq, hu.wire_eq.trans he.wire⟩
  · refine ⟨_, hrun _ hf, .inr ?_⟩
    simp only [State.nextInputs_fsm, State.nextInputs_phase, State.nextInputs_wire]
    exact ⟨rfl, he.req ▸ hop, he.phase ▸ hp, rfl, congrArg (· ++ [BusEvent.csAssert]) he.wire⟩
  · obtain ⟨-, -, hn⟩ := hi.inFlight hfsm
    exact absurd (State.transactionLength_congr he.cfg he.req ▸ hn) (hnone _)

/-! ### The bytes sent -/

theorem sentBytes_append (es es' : List BusEvent) : sentBytes (es ++ es') = sentBytes es ++ sentBytes es' := by
  simp [sentBytes]

/-- A transaction sends its slots' bytes, cycle by cycle (20_memory.md R72, 43_chain.md R211). -/
theorem State.sentBytes_transactionEvents (s : State) (rx : Nat → Byte) :
    sentBytes (s.transactionEvents rx) =
      (List.range s.flen).flatMap fun cycle => (List.range s.cfg.n).map (s.slotCarries cycle) := by
  have hgap : sentBytes s.gapEvents = [] := by unfold State.gapEvents; split <;> rfl
  have hcycle (j : Nat) : sentBytes (s.cycleEvents rx j) = (List.range s.cfg.n).map (s.slotCarries j) := by
    simp [sentBytes, State.cycleEvents, List.filterMap_map]
  have hstep (j : Nat) : sentBytes ((if j = 0 then [] else s.gapEvents) ++ s.cycleEvents rx j) =
      (List.range s.cfg.n).map (s.slotCarries j) := by
    rw [sentBytes_append, hcycle]
    split
    · rfl
    · rw [hgap, List.nil_append]
  have hend : sentBytes [.csDeassert] = [] := rfl
  rw [State.transactionEvents, sentBytes_append, hend, List.append_nil, sentBytes, List.filterMap_flatMap]
  exact List.flatMap_congr fun j _ => hstep j

/-- The first bytes of a 4-byte buffer, by their places. -/
theorem map_getD_range (v : Vector Byte 4) {n : Nat} (h : n ≤ 4) :
    ((List.range n).map fun m => v.getD m 0) = v.toList.take n := by
  refine List.ext_getElem (by simp [h]) fun i hi _ => ?_
  have hi4 : i < 4 := by simp at hi; omega
  simp [Vector.getD, hi4]

/-- Settles O56: a whole transaction sends its slots' bytes, and the one slot of a byte-cycle is the target's. -/
theorem singleDeviceSendsTheFrame : Obligations.SingleDeviceSendsTheFrame := by
  intro s hi hfsm hj ht hn hlen hx
  have hs : s.Undisturbed := ⟨hi, hfsm, hj, ht, by rwa [hn, one_mul], by rwa [hn, one_mul]⟩
  obtain ⟨-, hflen, hpos⟩ := hs.bounds
  have hslot : s.cfg.slotpos 0 = s.req.pos.toNat := by unfold Config.slotpos; split <;> omega
  obtain ⟨u, hrun, hend⟩ := transactionShowsItsExchanges s hi hfsm hj ht hs.enough hs.carries
  have hwire : sentBytes u.wire = sentBytes s.wire ++ sentBytes (s.transactionEvents s.received) := by
    obtain ⟨-, -, hw⟩ | ⟨-, -, -, -, hw⟩ := hend
    · rw [hw, sentBytes_append]
      rfl
    · rw [hw, sentBytes_append, sentBytes_append]
      exact List.append_nil _
  rw [hn, one_mul] at hrun
  refine ⟨u, hrun, ?_⟩
  have hcycle (j : Nat) : (List.range 1).map (s.slotCarries j) = [s.frame.getD j 0] := by simp [State.slotCarries, hslot]
  simp only [hwire, s.sentBytes_transactionEvents, hn, hcycle, ← List.map_eq_flatMap, map_getD_range _ hflen]

/-! ### GET_PARAM from its request to its response -/

/-- The data bytes of a buffer, by their places (43_chain.md R203). -/
theorem State.dataBytes_eq (v : Vector Byte 4) {w : Nat} (h : nb w ≤ 3) :
    State.dataBytes v w = (List.range (nb w)).map fun m => v.getD (m + 1) 0 := by
  refine List.ext_getElem (by simp [State.dataBytes]; omega) fun i hi _ => ?_
  have hi4 : i + 1 < 4 := by simp [State.dataBytes] at hi; omega
  simp [State.dataBytes, Vector.getD, hi4]

theorem State.getD_overlay (old : Vector Byte 4) {bs : List Byte} {c : Nat} (h : c < bs.length) (hc : c < 4) :
    (State.overlay old bs).getD c 0 = bs[c] := by
  have hget := State.getElem?_eq_some_overlay (old := old) (m := ⟨c, hc⟩) h
  rw [List.getElem?_eq_getElem h] at hget
  simpa [Vector.getD, hc] using (Option.some.inj hget).symm

/-- A get frame is the command byte, and the no-operation byte from there on (43_chain.md R203). -/
theorem getElem_getFrame {c : Config} {reg : RegId} {w cycle : Nat} (h : cycle < (getFrame c reg w).length) :
    (getFrame c reg w)[cycle] = if cycle = 0 then c.wire.get reg else c.wire.nop := by
  cases cycle <;> simp [getFrame]

/-- The target's exchange of a byte-cycle before the `k`-th comes before the `k`-th byte-cycle. -/
theorem targetExchange_lt {c : Config} {pos cycle k : Nat} (hpos : pos < c.n) (hk : cycle < k) :
    cycle * c.n + c.slotpos pos < c.n * k := by
  calc cycle * c.n + c.slotpos pos < cycle * c.n + c.n := Nat.add_lt_add_left (slotpos_slotpos hpos).1 _
    _ = c.n * (cycle + 1) := by rw [Nat.mul_succ, Nat.mul_comm]
    _ ≤ c.n * k := Nat.mul_le_mul_left _ hk

namespace State.Shifted

variable {s v : State} (h : s.Shifted v)
include h

/-- The bytes that come back in the target's slot of the data byte-cycles are the echo's data bytes (43_chain.md R207). -/
theorem dataBytes_echo (hs : s.Undisturbed) {w : Nat} (hflen : s.flen = 1 + nb w) :
    State.dataBytes v.echo w =
      (List.range (nb w)).map fun m => s.received ((m + 1) * s.cfg.n + s.cfg.slotpos s.req.pos.toNat) := by
  obtain ⟨-, hle, hpos⟩ := hs.bounds
  rw [State.dataBytes_eq _ (by omega)]
  refine List.map_congr_left fun m hm => h.echo (m + 1) (targetExchange_lt hpos ?_)
  have := List.mem_range.1 hm
  omega

theorem sentBytes_wire : sentBytes v.wire = sentBytes s.wire ++
    (List.range s.flen).flatMap fun cycle => (List.range s.cfg.n).map (s.slotCarries cycle) := by
  rw [h.wire, sentBytes_append, State.sentBytes_transactionEvents]

end State.Shifted

section

variable {s : State} {bs : List Byte}

theorem State.startTransaction_coming (hne : s.script ≠ []) : (s.startTransaction bs).nextInputs.coming = s.script :=
  nextInputs_coming hne

/-- A transaction that starts is undisturbed when the inputs that come let it be. -/
theorem State.undisturbed_of_start (hi : s.Inv) (hstep : step s = .next (s.startTransaction bs).nextInputs) (hne : s.script ≠ [])
    (hlen : s.cfg.n * bs.length ≤ s.script.length) (hx : ∀ x ∈ s.script.take (s.cfg.n * bs.length), x.CarriesOn) :
    (s.startTransaction bs).nextInputs.Undisturbed where
  inv := stepKeepsInvariant s _ hi hstep
  fsm := by simp
  j_eq := by simp
  t_eq := by simp
  enough := by simpa [State.startTransaction_coming hne] using hlen
  carries := by simpa [State.startTransaction_coming hne] using hx

theorem State.received_start {m : Nat} (hm : m < s.script.length) (x : Inputs) :
    (s.startTransaction bs).nextInputs.received m = (s.script.getD m x).bus.rx := by
  have hne : s.script ≠ [] := List.ne_nil_of_length_pos (Nat.zero_lt_of_lt hm)
  simp [State.received, State.startTransaction_coming hne, hm]

/-- The slots of a get transaction carry the command byte once, in the target's slot of the first byte-cycle (43_chain.md R222). -/
theorem State.slotCarries_getFrame {reg : RegId} {w cycle : Nat} (hw : nb w ≤ 3) (hcycle : cycle < 1 + nb w) (index : Nat) :
    (s.startTransaction (getFrame s.cfg reg w)).nextInputs.slotCarries cycle index =
      if s.cfg.slotpos index = s.req.pos.toNat ∧ cycle = 0 then s.cfg.wire.get reg else s.cfg.wire.nop := by
  have hlt : cycle < (getFrame s.cfg reg w).length := by rwa [getFrame_length]
  rw [State.slotCarries, State.nextInputs_frame, State.startTransaction_frame, State.getD_overlay _ hlt (by omega),
    getElem_getFrame]
  simp [ite_and]

end

theorem eq_pos_of_getParam {r : Request} {pos : Pos} {reg : RegId} (hd : decodeFields r = .ok (.getParam pos reg)) :
    pos = r.pos := by
  obtain ⟨hrsv, hop⟩ := rsv_and_op_of_decodeFields hd
  have hd' := decodeFields_eq_getParam.2 ⟨hrsv, (Option.some.inj hop).symm⟩
  rw [hd] at hd'
  cases hd'
  rfl

/-- Settles O57: ADDRESSING starts the get frame's transaction, which runs to its end undisturbed; there finish() decodes the echo,
and the bytes sent are the slots'. -/
theorem getParamEndToEnd : Obligations.GetParamEndToEnd := by
  intro s pos reg e hi hfsm hrst hread hd he hpos hlen hx
  have hwidth := width_of_lookup hi.configLegal he
  have hready : s.Ready := ⟨hi.configLegal, hrst, State.badRead_of_no_read hread⟩
  have hstep : step s = .next (s.startTransaction (getFrame s.cfg reg e.width)).nextInputs := by
    rw [step_of_decodeFields_ok hready hfsm hd, exec_getParam_of_known he hwidth hpos, advance]
  have hne : s.script ≠ [] :=
    List.ne_nil_of_length_pos ((Nat.mul_pos hi.chain_pos (Nat.add_pos_left Nat.one_pos _)).trans_le hlen)
  have hs : (s.startTransaction (getFrame s.cfg reg e.width)).nextInputs.Undisturbed :=
    State.undisturbed_of_start hi hstep hne (by simpa using hlen) (by simpa using hx)
  obtain ⟨v, hv, hrun⟩ := hs.run_shifted
  have hfinish : finish v = .next (v.respondRead e.width) :=
    finish_getParam (by rw [hv.req]; simpa using hd) (by rw [hv.cfg]; simpa using he)
  refine ⟨(v.respondRead e.width).nextInputs, ?_, by simp [State.respondRead], by simp [State.respondRead],
    by simp [State.respondRead, statusOk], ?_, ?_⟩
  · rw [Nat.add_comm, run_cons hstep]
    simpa using hrun _ hfinish
  · have hdata := hv.dataBytes_echo hs (w := e.width) (by simp)
    simp only [State.respondRead, State.nextInputs_rspInt, State.respondOk_rspInt, State.withEcho_rspInt, State.echoValue, hdata]
    congr 2
    refine List.map_congr_left fun m hm => ?_
    have hm := List.mem_range.1 hm
    have hlt := (targetExchange_lt (cycle := m + 1) hpos (by omega)).trans_le hlen
    simpa [eq_pos_of_getParam hd] using State.received_start hlt s.inp
  · have hassert : sentBytes [.csAssert] = [] := rfl
    calc sentBytes (v.respondRead e.width).nextInputs.wire = sentBytes v.wire := by simp [State.respondRead]
      _ = sentBytes s.wire ++ (List.range (1 + nb e.width)).flatMap fun cycle => (List.range s.cfg.n).map
          ((s.startTransaction (getFrame s.cfg reg e.width)).nextInputs.slotCarries cycle) := by
        simp [hv.sentBytes_wire, sentBytes_append, hassert]
      _ = _ := by
        refine congrArg _ (List.flatMap_congr fun cycle hcycle => List.map_congr_left fun index _ => ?_)
        rw [State.slotCarries_getFrame (nb_le_three hwidth.2) (List.mem_range.1 hcycle), ← eq_pos_of_getParam hd]

end Sys2Proof.Machine
end

section
/-! PROOFS. The busy family (44_busy.md): the Boolean of each path (R261, R262), when the two agree (R264), and BUSY from its
position check to its response (R263). -/

namespace Sys2Proof

theorem decodeFields_eq_busy {r : Request} : decodeFields r = .ok (.busy r.pos) ↔ r.rsv = 0#6 ∧ r.op = 0xC#4 :=
  decodeFields_eq_ok_iff rfl fun hrsv hop => by simp [decodeFields, hrsv, hop]

end Sys2Proof

namespace Sys2Proof.Machine

/-! ### The two ways busy is read -/

/-- Low means busy (44_busy.md R261). -/
theorem busyFromLine_eq_decide (level : Bool) : busyFromLine level = decide (level = false) := by cases level <;> rfl

/-- Busy is bit 1 of the status value at its active level (44_busy.md R262). -/
theorem busyFromStatus_eq_ite (activeLow : Bool) (x : Nat) :
    busyFromStatus activeLow x = if activeLow then decide (x / 2 % 2 = 0) else decide (x / 2 % 2 = 1) := by
  have hbit : x.testBit statusBusyBit = decide (x / 2 % 2 = 1) := Nat.testBit_eq_decide_div_mod_eq
  simp only [busyFromStatus, hbit, ← decide_not, Nat.mod_two_not_eq_one]

/-- Settles O49: both paths negate what they read, and negation is injective. -/
theorem busyPathsAgree : Obligations.BusyPathsAgree := fun _ _ => Bool.not_inj_iff

/-! ### BUSY -/

section

variable {s : State} {pos : Pos} {e : Entry}

theorem exec_busy_of_position (hp : s.cfg.n ≤ pos.toNat) : exec (.busy pos) s = .next (s.raise .invalidPosition) := by
  have herr : checkPosition s.cfg pos = .error .invalidPosition := if_pos hp
  simp only [exec, execBusy, herr]

/-- A position with a line answers from the line's level at once (44_busy.md R261, R263). -/
theorem exec_busy_of_line (hp : pos.toNat < s.cfg.n) (hline : s.cfg.hasBusyLine pos.toNat = true) :
    exec (.busy pos) s = .next { s with
      rspBool := busyFromLine (s.inp.busyLine.getLsbD pos.toNat), rspStatus := 0, rspValid := true, fsm := .complete } := by
  simp only [exec, execBusy, checkPosition_eq_ok.2 hp, hline, if_true]
  rfl

/-- A position without a line asks the status register, whose checks come after the position's (44_busy.md R263). -/
theorem exec_busy_of_no_line (hp : pos.toNat < s.cfg.n) (hline : s.cfg.hasBusyLine pos.toNat = false) :
    exec (.busy pos) s = settle s (checkRegister s.cfg s.cfg.statusReg) fun e =>
      s.startTransaction (getFrame s.cfg s.cfg.statusReg e.width) := by
  simp only [exec, execBusy, checkPosition_eq_ok.2 hp, hline, Bool.false_eq_true, if_false]

theorem finish_busy (hd : decodeFields s.req = .ok (.busy pos)) (he : s.cfg.lookup s.cfg.statusReg = some e) :
    finish s = .next { s with
      rspInt := BitVec.ofNat 32 (s.echoValue e.width)
      rspBool := busyFromStatus s.cfg.statusBusyActiveLow (s.echoValue e.width)
      rspStatus := 0, rspValid := true, fsm := .complete } := by
  simp only [finish, hd, finishBusy, he]
  rfl

end

/-- Settles O28: the position decides first; a line answers at once, and without one the check of the status register decides
between an error and the get transaction, whose last exchange answers from the echo it completes. -/
theorem busyAnswersFromLineOrStatus : Obligations.BusyAnswersFromLineOrStatus := by
  refine ⟨fun r => decodeFields_eq_busy, fun pos s => ⟨exec_busy_of_position, fun hp hline => ?_, fun hp hline => ?_⟩⟩
  · rw [exec_busy_of_line hp hline, busyFromLine_eq_decide]
  · rw [exec_busy_of_no_line hp hline]
    refine ⟨fun h => settle_of_error (checkRegister_of_unknown h), fun e he =>
      ⟨fun hw => settle_of_error (checkRegister_of_width he hw), fun hw => ⟨?_, ?_⟩⟩⟩
    · exact (settle_of_ok (checkRegister_of_known he hw)).trans (congrArg _ (s.startTransaction_eq (getFrame_length ..)))
    · rintro b x hd hl rfl
      rw [exchange_of_last hl, finish_busy (s := s.afterLast b) hd he, busyFromStatus_eq_ite]
      rfl

end Sys2Proof.Machine
end

section
/-! PROOFS. The sub-field family (45_subfield.md): a field as a range of bits of a register value (R280, R282), what replacing one
keeps and writes (R283, R284, R286), and GET_SUBFIELD and SET_SUBFIELD from their checks to their responses (R282, R283). -/

namespace Sys2Proof

theorem decodeFields_eq_setSubfield {r : Request} :
    decodeFields r = .ok (.setSubfield r.pos r.reg r.fld r.val) ↔ r.rsv = 0#6 ∧ r.op = 0xA#4 :=
  decodeFields_eq_ok_iff rfl fun hrsv hop => by simp [decodeFields, hrsv, hop]

theorem decodeFields_eq_getSubfield {r : Request} :
    decodeFields r = .ok (.getSubfield r.pos r.reg r.fld) ↔ r.rsv = 0#6 ∧ r.op = 0xB#4 :=
  decodeFields_eq_ok_iff rfl fun hrsv hop => by simp [decodeFields, hrsv, hop]

end Sys2Proof

namespace Sys2Proof.Machine

/-! ### A field's bits -/

theorem extractField_eq (x : Nat) (f : SubField) : extractField x f = x / 2 ^ f.off % 2 ^ f.fw := by
  rw [extractField, Nat.shiftRight_eq_div_pow, Nat.and_two_pow_sub_one_eq_mod]

/-- The mask has the field's bits set (45_subfield.md R280). -/
theorem getLsbD_fieldMask (f : SubField) {k : Nat} (hk : k < 32) :
    (fieldMask f).getLsbD k = decide (f.off ≤ k ∧ k < f.off + f.fw) := by
  simp only [fieldMask, BitVec.getLsbD_ofNat, Nat.testBit_shiftLeft, Nat.testBit_two_pow_sub_one, hk, decide_true, Bool.true_and]
  rw [← Bool.decide_and]
  exact decide_eq_decide.2 (by omega)

/-- The residue that replaces a field has no bit beyond the field's width. -/
theorem testBit_toNat_emod_of_le (v : Int) {w i : Nat} (h : w ≤ i) : (v % 2 ^ w).toNat.testBit i = false :=
  Nat.testBit_eq_false_of_lt ((toNat_emod_two_pow_lt v w).trans_le (Nat.pow_le_pow_right two_pos h))

/-- The new value bit by bit: inside the field the argument's residue, outside the old value (45_subfield.md R283). -/
theorem getLsbD_insertField (old : Word32) (f : SubField) (v : Int) {k : Nat} (hk : k < 32) :
    (insertField old f v).getLsbD k =
      if f.off ≤ k ∧ k < f.off + f.fw then (v % 2 ^ f.fw).toNat.testBit (k - f.off) else old.getLsbD k := by
  have hkeeps : (~~~fieldMask f).getLsbD k = !decide (f.off ≤ k ∧ k < f.off + f.fw) := by
    rw [BitVec.getLsbD_not, getLsbD_fieldMask f hk, decide_eq_true hk, Bool.true_and]
  have hwrites : (BitVec.ofNat 32 ((v % 2 ^ f.fw).toNat <<< f.off)).getLsbD k =
      (decide (f.off ≤ k) && (v % 2 ^ f.fw).toNat.testBit (k - f.off)) := by
    rw [BitVec.getLsbD_ofNat, Nat.testBit_shiftLeft, decide_eq_true hk, Bool.true_and]
  rw [insertField, BitVec.getLsbD_or, BitVec.getLsbD_and, hkeeps, hwrites]
  by_cases hbelow : k < f.off
  · simp [hbelow.not_ge]
  by_cases habove : f.off + f.fw ≤ k
  · simp [testBit_toNat_emod_of_le v (Nat.le_sub_of_add_le' habove), habove.not_gt]
  · simp [not_lt.1 hbelow, not_le.1 habove]

/-- Settles O50: the new value has the old one's bits outside the field and the residue's inside it. -/
theorem fieldIsolation : Obligations.FieldIsolation := by
  intro old f v _ hfits
  refine ⟨fun k hk hout => ?_, ?_⟩
  · rw [getLsbD_insertField old f v hk, if_neg (by omega)]
  · have hfield : extractField (insertField old f v).toNat f = (v % 2 ^ f.fw).toNat := by
      refine Nat.eq_of_testBit_eq fun i => ?_
      rw [extractField_eq, Nat.testBit_mod_two_pow, Nat.testBit_div_two_pow]
      by_cases hi : i < f.fw
      · rw [BitVec.testBit_toNat, getLsbD_insertField old f v (by omega), if_pos (by omega), Nat.add_sub_cancel,
          decide_eq_true hi, Bool.true_and]
      · rw [testBit_toNat_emod_of_le v (not_lt.1 hi), decide_eq_false hi, Bool.false_and]
    rw [hfield, Int.toNat_of_nonneg (emod_two_pow_nonneg v f.fw)]

/-- Settles O51: STEP_SEL's mask is `0x07`, and a residue modulo 8 is the low three bits, of a negative argument too. -/
theorem stepModeTakesArgument : Obligations.StepModeTakesArgument := by
  intro old m name
  have hmask : fieldMask ⟨0x16, 0, name, 0, 3⟩ = 0x07#32 := rfl
  have hlow : BitVec.ofNat 32 ((m.toInt % 2 ^ 3).toNat <<< 0) = m &&& 0x07#32 := by
    have hand : (m &&& 0x07#32).toNat = m.toNat % 2 ^ 3 := Nat.and_two_pow_sub_one_eq_mod m.toNat 3
    refine BitVec.eq_of_toNat_eq ?_
    rw [hand, BitVec.toNat_ofNat, Nat.shiftLeft_zero, BitVec.toInt_eq_toNat_cond]
    split <;> omega
  rw [insertField, hmask, hlow]

/-- SET_SUBFIELD's new value as the spec writes it (45_subfield.md R283). -/
theorem insertField_eq (old : Word32) (f : SubField) (v : Int) : insertField old f v =
    ((old &&& ~~~BitVec.ofNat 32 ((2 ^ f.fw - 1) * 2 ^ f.off)) ||| BitVec.ofInt 32 (v % 2 ^ f.fw * 2 ^ f.off)) := by
  have hfield : v % 2 ^ f.fw * 2 ^ f.off = (((v % 2 ^ f.fw).toNat * 2 ^ f.off : Nat) : Int) := by
    push_cast
    rw [Int.toNat_of_nonneg (emod_two_pow_nonneg v f.fw)]
  rw [insertField, fieldMask, Nat.shiftLeft_eq, Nat.shiftLeft_eq, hfield, BitVec.ofInt_natCast]

/-! ### The check that is reported -/

theorem reported_checkField_bind {β : Type} {c : Config} (reg : RegId) (fld : FieldId)
    (g : Entry × SubField → Except ErrCode β) :
    reported (checkField c reg fld >>= g) = match c.lookup reg, c.subfield reg fld with
      | none, _ => some .unknownRegister
      | some _, none => some .unknownField
      | some e, some f =>
        if !(decide (1 ≤ e.width) && decide (e.width ≤ 22)) || decide (e.width < f.off + f.fw) then some .invalidWidth
        else reported (g (e, f)) := by
  cases he : c.lookup reg with
  | none => simp [checkField, he, bind, Except.bind]
  | some e =>
    cases hf : c.subfield reg fld with
    | none => simp [checkField, he, hf, bind, Except.bind]
    | some f =>
      by_cases hok : (1 ≤ e.width ∧ e.width ≤ 22) ∧ f.off + f.fw ≤ e.width
      · obtain ⟨hw, hfits⟩ := hok
        rw [bind_of_ok (checkField_eq_ok (ef := (e, f)).2 ⟨he, hf, (widthValid_iff _).2 hw, hfits⟩)]
        simp [hw, hfits]
      · have herr : checkField c reg fld = .error .invalidWidth := by
          simp only [checkField, he, hf]
          exact if_neg (by simpa [widthValid_iff] using hok)
        rw [bind_of_error herr]
        exact (if_pos (by simp; omega)).symm

theorem reported_getSubfieldOperands (c : Config) (pos : Pos) (reg : RegId) (fld : FieldId) :
    reported (getSubfieldOperands c pos reg fld) = checkOrder.find? (checkFails c (.getSubfield pos reg fld)) := by
  simp only [getSubfieldOperands, reported_checkField_bind, reported_checkPosition_bind, checkOrder, find?_cons_eq_ite,
    List.find?_nil]
  cases he : c.lookup reg <;> cases hf : c.subfield reg fld <;>
    simp [checkFails, namedRegister, namedField, namedPosition, isSet, he, hf]

theorem reported_setSubfieldOperands (c : Config) (pos : Pos) (reg : RegId) (fld : FieldId) (val : Word32) :
    reported (setSubfieldOperands c pos reg fld) = checkOrder.find? (checkFails c (.setSubfield pos reg fld val)) := by
  simp only [setSubfieldOperands, reported_checkField_bind, reported_checkPosition_bind, reported_checkWritable_bind, checkOrder,
    find?_cons_eq_ite, List.find?_nil]
  cases he : c.lookup reg <;> cases hf : c.subfield reg fld <;>
    simp [checkFails, namedRegister, namedField, namedPosition, isSet, he, hf]

/-! ### The transactions and the responses -/

/-- A frame that opens with a command byte and the encoding of a number that fits sends this number (log entry 7). -/
theorem State.sentValue_of_frame {s : State} {w r : Nat} {cmd : Byte} (hw : 1 ≤ w ∧ w ≤ 22) (hr : r < 2 ^ w)
    (hframe : s.frame.toList.take s.flen = cmd :: encodeBytes r w) : s.sentValue w = r := by
  have hround : (decodeBytes (encodeBytes r w) w : Int) = r % 2 ^ w := codecRoundTrip r w hw.1 hw.2
  rw [State.sentValue, State.dataBytes_of_take hframe]
  exact mod_cast hround.trans (Int.emod_eq_of_lt (Int.natCast_nonneg r) (mod_cast hr))

section

variable {s : State} {pos : Pos} {reg : RegId} {fld : FieldId} {val : Word32} {e : Entry} {f : SubField}

theorem finish_getSubfield (hd : decodeFields s.req = .ok (.getSubfield pos reg fld)) (he : s.cfg.lookup reg = some e)
    (hf : s.cfg.subfield reg fld = some f) : finish s = .next { s with
      rspInt := BitVec.ofNat 32 (extractField (s.echoValue e.width) f), rspStatus := 0, rspValid := true, fsm := .complete } := by
  simp only [finish, hd, finishGetSubfield, he, hf]
  rfl

/-- After its read SET_SUBFIELD starts its write (45_subfield.md R283). -/
theorem finish_setSubfield_of_read (hd : decodeFields s.req = .ok (.setSubfield pos reg fld val))
    (he : s.cfg.lookup reg = some e) (hf : s.cfg.subfield reg fld = some f) (hphase : s.phase = 0) :
    finish s = .next (({ s with phase := 1 } : State).startTransaction
      (setFrame s.cfg reg e.width (subfieldUpdate s e f val).toNat)) := by
  simp only [finish, hd, finishSetSubfield, he, hf, hphase, if_true]

/-- After its write SET_SUBFIELD responds (45_subfield.md R283). -/
theorem finish_setSubfield_of_write (hd : decodeFields s.req = .ok (.setSubfield pos reg fld val))
    (he : s.cfg.lookup reg = some e) (hf : s.cfg.subfield reg fld = some f) (hphase : s.phase = 1) :
    finish s = .next { s with
      rspInt := BitVec.ofNat 32 (s.sentValue e.width), rspStatus := 0, rspValid := true, fsm := .complete } := by
  simp only [finish, hd, finishSetSubfield, he, hf, hphase, one_ne_zero, if_false]
  rfl

end

/-- Settles O26: the first failing check decides, and the last exchange answers with the field of the value read. -/
theorem getSubfieldReadsField : Obligations.GetSubfieldReadsField := by
  refine ⟨fun r => decodeFields_eq_getSubfield, fun pos reg fld s => ⟨fun k hk => ?_, fun e f he hf hw hfits hp => ⟨?_, ?_⟩⟩⟩
  · exact settle_of_error (eq_error_of_reported ((reported_getSubfieldOperands ..).trans hk))
  · have hops : getSubfieldOperands s.cfg pos reg fld = .ok (e, f) :=
      getSubfieldOperands_eq_ok.2 ⟨checkField_eq_ok.2 ⟨he, hf, (widthValid_iff _).2 hw, hfits⟩, hp⟩
    exact (settle_of_ok hops).trans (congrArg _ (s.startTransaction_eq (getFrame_length ..)))
  · intro b hd hl
    rw [exchange_of_last hl, finish_getSubfield (s := s.afterLast b) hd he hf, extractField_eq]
    rfl

/-- Settles O27: the first failing check decides; the read's last exchange starts the write of the value read with the field
replaced, and the write's answers with the value that its frame carries. -/
theorem setSubfieldReadsThenWrites : Obligations.SetSubfieldReadsThenWrites := by
  refine ⟨fun r => decodeFields_eq_setSubfield, fun pos reg fld val s => ⟨fun k hk => ?_, fun e f he hf hw hfits hp hrw =>
    ⟨?_, fun b hd hl => ⟨fun hphase old new hold hnew => ?_, fun hphase new hlt hframe => ?_⟩⟩⟩⟩
  · exact settle_of_error (eq_error_of_reported ((reported_setSubfieldOperands ..).trans hk))
  · have hops : setSubfieldOperands s.cfg pos reg fld = .ok (e, f) :=
      setSubfieldOperands_eq_ok.2 ⟨checkField_eq_ok.2 ⟨he, hf, (widthValid_iff _).2 hw, hfits⟩, hp, hrw⟩
    exact (settle_of_ok hops).trans (congrArg _ (s.startTransaction_eq (getFrame_length ..)))
  · have hvalue : subfieldUpdate (s.afterLast b) e f val = new := by
      rw [hnew, hold]
      exact insertField_eq _ f val.toInt
    rw [exchange_of_last hl, finish_setSubfield_of_read (s := s.afterLast b) hd he hf hphase, hvalue,
      State.startTransaction_eq _ (setFrame_length ..)]
    simp [State.afterLast, setFrame]
  · rw [exchange_of_last hl, finish_setSubfield_of_write (s := s.afterLast b) hd he hf hphase,
      State.sentValue_of_frame (s := s.afterLast b) hw hlt hframe]

end Sys2Proof.Machine
end

section
/-! PROOFS. Errors (60_exceptions.md): what an ADDRESSING step that answers an error writes (R300, R302), and which of an operation's
failing checks it reports (R301). -/

namespace Sys2Proof.Machine

/-! ### Error entry -/

/-- Every error but a bus failure has a code that ADDRESSING can write (60_exceptions.md R300). -/
theorem ErrCode.code_mem_of_ne_busTransferFailed {e : ErrCode} (h : e ≠ .busTransferFailed) :
    e.code ∈ [0x1#4, 0x2#4, 0x3#4, 0x4#4, 0x6#4, 0x7#4, 0x8#4, 0x9#4] := by
  cases e with
  | busTransferFailed => exact absurd rfl h
  | _ => decide

/-- Settles O35: of the moves out of ADDRESSING only the error entry ends in COMPLETE with a code other than OK's, and none of its
codes is the bus failure's. -/
theorem errorEntryIsPrecise : Obligations.ErrorEntryIsPrecise := by
  refine ⟨fun s => ⟨rfl, rfl, rfl, rfl, rfl, rfl, rfl, rfl, rfl⟩, fun s u hr hfsm h hcomplete hcode => ?_⟩
  obtain ⟨v, hv, rfl⟩ := step_next_of_running hr.running h
  simp only [State.nextInputs_fsm, State.nextInputs_rspStatus] at hcomplete hcode
  cases hv with
  | idle hf | accept hf | fail hf | nextSlot hf | nextCycle hf | finish hf | writeBack hf | held hf | take hf => simp [hfsm] at hf
  | error _ e he => exact ⟨e.code, ErrCode.code_mem_of_ne_busTransferFailed he, rfl⟩
  | answer _ _ ht => exact absurd ht.rspStatus_eq hcode
  | start => cases hcomplete

/-! ### The check that is reported -/

theorem reported_checkRegister (c : Config) (reg : RegId) :
    reported (checkRegister c reg) = checkOrder.find? (checkFails c (.lookup reg)) := by
  rw [← bind_pure (checkRegister c reg), reported_checkRegister_bind]
  simp only [checkOrder, find?_cons_eq_ite, List.find?_nil]
  cases he : c.lookup reg <;> simp [checkFails, namedRegister, namedField, namedPosition, isSet, he]

theorem reported_convertOperands (c : Config) (reg : RegId) (phys : Phys) :
    reported (convertOperands c reg phys) = checkOrder.find? (checkFails c (.convert reg phys)) := by
  have hphys (e : Entry) : reported (physValue phys >>= convert e) =
      if physOutOfRange e phys then some .valueOutOfRange else none := by
    simpa only [id_eq, bind_pure] using reported_convert_bind e phys id
  simp only [convertOperands, reported_checkRegister_bind, hphys, checkOrder, find?_cons_eq_ite, List.find?_nil]
  cases he : c.lookup reg <;> simp [checkFails, namedRegister, namedField, namedPosition, isSet, he]

theorem reported_invertOperands (c : Config) (reg : RegId) (val : Word32) :
    reported (invertOperands c reg val) = checkOrder.find? (checkFails c (.invert reg val)) := by
  simp only [invertOperands, reported_checkRegister_bind, apply_ite reported, reported_error, reported_pure, checkOrder,
    find?_cons_eq_ite, List.find?_nil]
  cases he : c.lookup reg <;> simp [checkFails, namedRegister, namedField, namedPosition, isSet, he]

theorem reported_checkWidth (w : BitVec 5) :
    reported (checkWidth w) = if !(decide (1 ≤ w.toNat) && decide (w.toNat ≤ 22)) then some .invalidWidth else none := by
  by_cases h : 1 ≤ w.toNat ∧ w.toNat ≤ 22
  · rw [checkWidth_of_valid h]
    simp [h, reported]
  · rw [checkWidth_of_invalid h]
    exact (if_pos (by simp; omega)).symm

theorem reported_checkWidth_encode (c : Config) (w : BitVec 5) (v : Word32) :
    reported (checkWidth w) = checkOrder.find? (checkFails c (.encode w v)) := by
  simp only [reported_checkWidth, checkOrder, find?_cons_eq_ite, List.find?_nil]
  simp [checkFails, namedRegister, namedField, namedPosition, isSet]

theorem reported_checkWidth_decode (c : Config) (w : BitVec 5) (bytes : Word32) :
    reported (checkWidth w) = checkOrder.find? (checkFails c (.decode w bytes)) := by
  simp only [reported_checkWidth, checkOrder, find?_cons_eq_ite, List.find?_nil]
  simp [checkFails, namedRegister, namedField, namedPosition, isSet]

/-! ### The first failing check is the outcome -/

/-- The outcome of an operation in `s` whose first failing check is `first`: that error's entry, or without one a transaction in
flight or a successful response (60_exceptions.md R301, 43_chain.md R202). -/
def ReportsFirst (s : State) (first : Option ErrCode) (o : Outcome) : Prop :=
  (∀ k, first = some k → o = .next (s.raise k)) ∧
    (first = none → ∃ u, o = .next u ∧ (u.fsm = .shifting ∨ u.fsm = .complete ∧ u.rspStatus = 0#4))

/-- Checks that report the first failing check decide the outcome, when what follows them responds or starts a transaction. -/
theorem settle_reportsFirst {α : Type} {s : State} {checks : Except ErrCode α} {go : α → State} {first : Option ErrCode}
    (hfirst : reported checks = first) (hgo : ∀ a, s.OnlyResponds (go a) ∨ ∃ bs, go a = s.startTransaction bs) :
    ReportsFirst s first (settle s checks go) := by
  subst hfirst
  cases checks with
  | error e =>
    refine ⟨fun k hk => ?_, fun hnone => nomatch hnone⟩
    cases hk
    rfl
  | ok a =>
    refine ⟨fun k hk => (nomatch hk), fun _ => ⟨go a, rfl, ?_⟩⟩
    obtain ht | ⟨bs, hbs⟩ := hgo a
    · exact .inr ⟨ht.fsm_eq, ht.rspStatus_eq⟩
    · exact .inl (hbs ▸ rfl)

/-- Every request operation but BUSY reports its checks in the order of 60_exceptions.md R301. -/
theorem exec_reportsFirst (i : Instr) (s : State) (hwire : i.isWire = false) (hbusy : ∀ pos, i ≠ .busy pos) :
    ReportsFirst s (checkOrder.find? (checkFails s.cfg i)) (exec i s) := by
  cases i with
  | lookup reg => exact settle_reportsFirst (reported_checkRegister ..) fun _ => .inl rfl
  | convert reg phys => exact settle_reportsFirst (reported_convertOperands ..) fun _ => .inl rfl
  | invert reg val =>
    refine settle_reportsFirst (reported_invertOperands ..) fun er => .inl ?_
    cases invert er.1 er.2 <;> rfl
  | encode w v => exact settle_reportsFirst (reported_checkWidth_encode ..) fun _ => .inl rfl
  | decode w bytes => exact settle_reportsFirst (reported_checkWidth_decode ..) fun _ => .inl rfl
  | setParam pos reg phys => exact settle_reportsFirst (reported_setParamOperands ..) fun _ => .inr ⟨_, rfl⟩
  | setRaw pos reg val => exact settle_reportsFirst (reported_setRawOperands ..) fun _ => .inr ⟨_, rfl⟩
  | getParam pos reg => exact settle_reportsFirst (reported_getParamOperands ..) fun _ => .inr ⟨_, rfl⟩
  | xferFrame pos len bytes => exact settle_reportsFirst (reported_xferOperands ..) fun _ => .inr ⟨_, rfl⟩
  | setSubfield pos reg fld val => exact settle_reportsFirst (reported_setSubfieldOperands ..) fun _ => .inr ⟨_, rfl⟩
  | getSubfield pos reg fld => exact settle_reportsFirst (reported_getSubfieldOperands ..) fun _ => .inr ⟨_, rfl⟩
  | busy pos => exact absurd rfl (hbusy pos)
  | wireNop | wireCmdSet _ | wireCmdGet _ => cases hwire

/-- Settles O36: a request that decodes to no operation runs no other check, the checks of an operation report the first that
fails, and BUSY asks the status register only at a position of the chain without a line. -/
theorem firstFailingCheckIsReported : Obligations.FirstFailingCheckIsReported := by
  refine ⟨fun s why => step_of_decodeFields_error, fun i s hwire => ⟨exec_reportsFirst i s hwire, ?_⟩⟩
  rintro pos rfl
  refine ⟨exec_busy_of_position, fun hp hline => ?_⟩
  rw [exec_busy_of_no_line hp hline]
  exact ⟨fun h => settle_of_error (checkRegister_of_unknown h), fun e he hw => settle_of_error (checkRegister_of_width he hw)⟩

end Sys2Proof.Machine
end

section
/-! PROOFS. The hold of a response and block reset (70_reset_and_hazards.md R340 to R342, R349): what COMPLETE does until its
response is taken, what block reset leaves, and that no step writes the configuration. -/

namespace Sys2Proof.Machine

/-! ### COMPLETE -/

theorem step_of_complete {s : State} (hr : s.Ready) (hfsm : s.fsm = .complete) : step s = .next s.completeStep.nextInputs := by
  rw [step_of_ready hr, fsmStep, hfsm, advance]

theorem State.completeStep_of_taken {s : State} (h : s.taken = true) : s.completeStep = s.takeResponse := if_pos h

theorem State.completeStep_of_not_taken {s : State} (h : ¬s.taken = true) : s.completeStep = s := if_neg h

/-- Settles O43: `taken_iff` decides the step in COMPLETE, which is `takeResponse` when the owner takes and the state as it was when
it does not. -/
theorem responseIsHeldUntilTaken : Obligations.ResponseIsHeldUntilTaken := by
  intro s hr hfsm
  rw [step_of_complete hr hfsm]
  refine ⟨fun q hq ht => ?_, fun q hq ht => ?_⟩
  · rw [State.completeStep_of_taken (State.taken_iff.2 ⟨q, hq, ht⟩)]
    rfl
  · have hheld : ¬s.taken = true := by simp [State.taken_iff, hq, ht]
    rw [State.completeStep_of_not_taken hheld]

/-! ### Block reset -/

theorem step_next_of_reset {s u : State} (hrst : s.inp.rst = true) (h : step s = .next u) : u = s.blockReset.nextInputs := by
  obtain ⟨-, hu⟩ | ⟨hrun, -⟩ := step_next h
  · exact hu
  · rw [hrst] at hrun; cases hrun

/-- Settles O46: under `rst` a step is `blockReset`, whatever the state, and its fields are R41's values. -/
theorem blockResetAbandonsEverything : Obligations.BlockResetAbandonsEverything := by
  intro s u _ hrst _ h
  obtain rfl := step_next_of_reset hrst h
  cases hcs : s.csAsserted <;> simp [hcs]

/-! ### The configuration -/

/-- No move of the state machine writes the configuration (00_scope.md R5). -/
theorem State.Moves.cfg_eq {s v : State} (h : s.Moves v) : v.cfg = s.cfg := by
  cases h with
  | idle | accept | error | start | fail | nextSlot | writeBack | held | take => rfl
  | nextCycle => simp
  | answer _ _ ht | finish _ _ _ ht => exact ht.cfg_eq

/-- Settles O47: block reset keeps the configuration, every move of the state machine does, and the next inputs do not touch it. -/
theorem configurationNeverChanges : Obligations.ConfigurationNeverChanges := by
  intro s u h
  obtain ⟨-, rfl⟩ | ⟨-, v, hv, rfl⟩ := step_next h
  · rw [State.nextInputs_cfg, State.blockReset_cfg]
  · rw [State.nextInputs_cfg, hv.cfg_eq]

end Sys2Proof.Machine
end
